-- ==== Sys2Proof/Word.lean ====
section
/-! DEFINITION. The two widths of CORE (spec/00_scope.md R6): the byte and the 16-bit word. -/

namespace Sys2Proof

/-- An 8-bit register or memory cell, R6. -/
abbrev Byte := BitVec 8

/-- A 16-bit register, pair or address, R6. -/
abbrev Word := BitVec 16

end Sys2Proof
end

