-- ==== Sys2Proof/Machine/Bits.lean ====
section
/-! DEFINITION. Bit-field, byte-order and sign-extension helpers (spec/00_scope.md R9, R10, R12). -/

namespace Sys2Proof

/-- `v[15:8]`, R9. -/
def hiByte (v : Word) : Byte := v.extractLsb' 8 8

/-- `v[7:0]`, R9. -/
def loByte (v : Word) : Byte := v.extractLsb' 0 8

/-- `hi : lo`, R10: the 16-bit value with `hi` in the high bits. -/
def wordOf (hi lo : Byte) : Word := hi ++ lo

/-- `sext_8(v)` as a 16-bit displacement, R10 and R62. -/
def sext (v : Byte) : Word := v.signExtend 16

end Sys2Proof
end

