-- ==== Sys2Proof/Config.lean ====
section
/-! DEFINITION. The parameters of spec/00_scope.md R7, as plain data, and their decided values.
The spec leaves no instruction result undefined, so there is no free value here. -/

namespace Sys2Proof

/-- `OOB_POLICY`, R44: what an access to an out-of-bounds address does. -/
inductive OobPolicy where
  /-- A read returns `OOB_SENTINEL`, a write is ignored, nothing is raised: the decided value (D9). -/
  | sentinel
  /-- The access raises OutOfBoundsAccess. -/
  | fault
deriving DecidableEq, Repr

/-- `RESET_REGS`, R7: the register values reset loads, `f` as the byte the spec prints. -/
structure ResetRegs where
  a : Byte
  f : Byte
  b : Byte
  c : Byte
  d : Byte
  e : Byte
  h : Byte
  l : Byte
  sp : Word
deriving DecidableEq, Repr

/-- The parameters of R7 that some rule reads.
`ROM_SIZE` and `JOYP_ADDR` are fixed with the address map (log entry 15). -/
structure Params where
  /-- `OOB_POLICY` -/
  oobPolicy : OobPolicy
  /-- `OOB_SENTINEL` -/
  oobSentinel : Byte
  /-- `RESET_PC` -/
  resetPc : Word
  /-- `RESET_REGS` -/
  resetRegs : ResetRegs
  /-- `ROM_BASE` -/
  romBase : Nat
  /-- `ROM_FILL` -/
  romFill : Byte
  /-- `RAM_INIT`: the RAM contents at reset, as address and byte pairs; an unlisted byte is 0x00. -/
  ramInit : List (Nat × Byte)
  /-- `TILE_BASE` -/
  tileBase : Nat
  /-- `MAP_BASE` -/
  mapBase : Nat
  /-- `MAP_W` -/
  mapW : Nat
  /-- `MAP_H` -/
  mapH : Nat
deriving DecidableEq, Repr

/-- `RESET_REGS` as decided (D5): A, F, B, C, D, E, H, L, SP = 01 B0 00 13 00 D8 01 4D FFFE. -/
def ResetRegs.decided : ResetRegs where
  a := 0x01
  f := 0xB0
  b := 0x00
  c := 0x13
  d := 0x00
  e := 0xD8
  h := 0x01
  l := 0x4D
  sp := 0xFFFE

/-- The decided values of R7, which every test vector of spec/95_test_vectors.md uses. -/
def Params.decided : Params where
  oobPolicy := .sentinel
  oobSentinel := 0xFF
  resetPc := 0x0100
  resetRegs := ResetRegs.decided
  romBase := 0x0000
  romFill := 0xFF
  ramInit := []
  tileBase := 0x8000
  mapBase := 0x9800
  mapW := 32
  mapH := 32

/-- The well-formed configurations of R142: every tile and the whole map lie in VRAM. -/
abbrev Params.wf (p : Params) : Prop :=
  0x8000 ≤ p.tileBase ∧ p.tileBase + 16 * 256 ≤ 0xA000 ∧
  0x8000 ≤ p.mapBase ∧ p.mapBase + p.mapW * p.mapH ≤ 0xA000

/-- `ROM_SIZE`, R7 and R161: the longest image. -/
def Config.romSize : Nat := 0x8000

end Sys2Proof
end

