-- ==== Sys2Proof/Syntax.lean ====
section
/-! DEFINITION. The instructions of CORE: one constructor of `Instr` per mnemonic of spec/opcode_table.json
(the eleven unassigned opcodes share one mnemonic and one constructor, log entry 12). -/

namespace Sys2Proof

/-- The r8 operand that is a register, R61 (code 6, the memory byte at HL, has forms of its own). -/
inductive R8 where
  | b | c | d | e | h | l | a
deriving DecidableEq, Repr

/-- The group-1 pairs of R61: LD rr,n16, INC rr, DEC rr, ADD HL,rr. -/
inductive Pair where
  | bc | de | hl | sp
deriving DecidableEq, Repr

/-- The group-2 pairs of R61: PUSH and POP. -/
inductive StackPair where
  | bc | de | hl | af
deriving DecidableEq, Repr

/-- The condition codes of R61 and R123. -/
inductive Cond where
  | nz | z | nc | c
deriving DecidableEq, Repr

/-- The instructions, in the order of spec/opcode_table.json. `AtHl` is the byte at HL, `N8` and `N16` immediates,
`E8` a signed displacement, `A8` a high-page offset, `A16` an address. -/
inductive Instr where
  | nop
  | ldRrN16 (rr : Pair) (n : Word)
  | ldAtBcA
  | incRr (rr : Pair)
  | incR8 (r : R8)
  | decR8 (r : R8)
  | ldR8N8 (r : R8) (n : Byte)
  | rlca
  | ldA16Sp (addr : Word)
  | addHlRr (rr : Pair)
  | ldAAtBc
  | decRr (rr : Pair)
  | rrca
  /-- The second byte of STOP is carried and ignored, R136. -/
  | stop (ignored : Byte)
  | ldAtDeA
  | rla
  | jrE8 (e : Byte)
  | ldAAtDe
  | rra
  | jrCcE8 (cc : Cond) (e : Byte)
  | ldAtHlIncA
  | daa
  | ldAAtHlInc
  | cpl
  | ldAtHlDecA
  | incAtHl
  | decAtHl
  | ldAtHlN8 (n : Byte)
  | scf
  | ldAAtHlDec
  | ccf
  | ldR8R8 (dst src : R8)
  | ldR8AtHl (dst : R8)
  | ldAtHlR8 (src : R8)
  | halt
  | addAR8 (r : R8)
  | addAAtHl
  | adcAR8 (r : R8)
  | adcAAtHl
  | subAR8 (r : R8)
  | subAAtHl
  | sbcAR8 (r : R8)
  | sbcAAtHl
  | andAR8 (r : R8)
  | andAAtHl
  | xorAR8 (r : R8)
  | xorAAtHl
  | orAR8 (r : R8)
  | orAAtHl
  | cpAR8 (r : R8)
  | cpAAtHl
  | retCc (cc : Cond)
  | popRr (rr : StackPair)
  | jpCcA16 (cc : Cond) (addr : Word)
  | jpA16 (addr : Word)
  | callCcA16 (cc : Cond) (addr : Word)
  | pushRr (rr : StackPair)
  | addAN8 (n : Byte)
  | ret
  | callA16 (addr : Word)
  | adcAN8 (n : Byte)
  | subAN8 (n : Byte)
  | sbcAN8 (n : Byte)
  | ldhA8A (n : Byte)
  | ldAtCA
  | andAN8 (n : Byte)
  | addSpE8 (e : Byte)
  | jpHl
  | ldA16A (addr : Word)
  | xorAN8 (n : Byte)
  | ldhAA8 (n : Byte)
  | ldAAtC
  | di
  | orAN8 (n : Byte)
  | ldHlSpE8 (e : Byte)
  | ldSpHl
  | ldAA16 (addr : Word)
  | cpAN8 (n : Byte)
  | refusedRst00H
  | refusedCbPrefix
  | refusedRst08H
  /-- One of the eleven unassigned opcodes of R66, with the opcode byte itself. -/
  | refusedUnassigned (op : Byte)
  | refusedRst10H
  | refusedReti
  | refusedRst18H
  | refusedRst20H
  | refusedRst28H
  | refusedRst30H
  | refusedEi
  | refusedRst38H
deriving DecidableEq, Repr

end Sys2Proof
end

