-- ==== Sys2Proof/Machine/State.lean ====
section
/-! DEFINITION. The state of CORE (spec/10_state.md R16-R29), its run states and errors, and the state after reset. -/

namespace Sys2Proof.Machine

/-- The four live bits of F, R20. Bits 3..0 read 0 and are not held (log entry 8). -/
structure Flags where
  /-- bit 7, Zero -/
  z : Bool
  /-- bit 6, Subtract -/
  n : Bool
  /-- bit 5, HalfCarry -/
  h : Bool
  /-- bit 4, Carry -/
  c : Bool
deriving DecidableEq, Repr

/-- Whether a bus access reads or writes, R25. -/
inductive Access where
  | read
  | write
deriving DecidableEq, Repr

/-- The kind and information of a fault, R25 and R139. -/
inductive FaultInfo where
  /-- DecodeError, with the opcode byte. -/
  | decodeError (op : Byte)
  /-- OutOfBoundsAccess, with the address and the access. -/
  | outOfBounds (addr : Word) (kind : Access)
deriving DecidableEq, Repr

/-- The run state, R25. -/
inductive RunState where
  | running
  | halted
  | faulted (pc : Word) (info : FaultInfo)
deriving DecidableEq, Repr

/-- `JoypadState`, R152: the buttons pressed now. -/
structure JoypadState where
  right : Bool
  left : Bool
  up : Bool
  down : Bool
  start : Bool
  select : Bool
  a : Bool
  b : Bool
deriving DecidableEq, Repr

/-- No button pressed. -/
def JoypadState.none : JoypadState where
  right := false
  left := false
  up := false
  down := false
  start := false
  select := false
  a := false
  b := false

/-- Storage, R32: address and byte pairs in canonical form (`Memory.wf`), keyed by the address of the storage cell, so
an echo address never stands in it. -/
abbrev Memory := List Host.Cell

/-- The complete state of R16, with the host's `JoypadState` (R152, log entry 2) and the parameters of R7 (log entry 1),
which no instruction writes. -/
structure State where
  a : Byte
  b : Byte
  c : Byte
  d : Byte
  e : Byte
  h : Byte
  l : Byte
  /-- F, R20 -/
  f : Flags
  sp : Word
  pc : Word
  /-- the interrupt master enable, R24 -/
  ime : Bool
  run : RunState
  /-- select bit P15, R153: false selects the action buttons -/
  p15 : Bool
  /-- select bit P14, R153: false selects the direction buttons -/
  p14 : Bool
  /-- ROM, VRAM, WRAM, OAM and HRAM, R33 -/
  mem : Memory
  /-- the buttons as the last step saw them -/
  joypad : JoypadState
  /-- the model's own field: what the host makes of `JoypadState` before each of the next steps, first step first; after the
  last of them the host changes nothing more (log entry 2) -/
  inputs : List JoypadState
  params : Params
deriving DecidableEq, Repr

/-- Why a step gives no next state. An instruction never stops so: its errors are run states (R140, R141). -/
inductive Fault where
  /-- Raised by `step` on a Halted CPU, which has no step (R27, R159). Safe: the model stops where the hardware does. -/
  | halted
  /-- Raised by `step` on a Faulted CPU, with the fault it holds (R27, R159). Safe: the model stops where the hardware
  does. -/
  | faulted (pc : Word) (info : FaultInfo)
deriving DecidableEq, Repr

/-- Why an instruction has no meaning. -/
inductive Refusal where
  /-- Raised by an arm of `exec` whose instruction has no meaning yet: by none, every instruction has one. Safe: the
  model stops where the hardware goes on. -/
  | notModelled (mnemonic : String)
deriving DecidableEq, Repr

/-- The machine after reset with the decided parameters, R29: no image loaded, so every ROM byte is `ROM_FILL` and every
RAM byte `RAM_INIT` (nothing is listed; log entries 4 and 5), and no button pressed, now or later (log entry 3). -/
def State.reset : State where
  a := 0x01
  b := 0x00
  c := 0x13
  d := 0x00
  e := 0xD8
  h := 0x01
  l := 0x4D
  f := { z := true, n := false, h := true, c := true }
  sp := 0xFFFE
  pc := 0x0100
  ime := false
  run := .running
  p15 := false
  p14 := false
  mem := []
  joypad := JoypadState.none
  inputs := []
  params := Params.decided

end Sys2Proof.Machine
end

