-- ==== Sys2Proof/Machine/Ops.lean ====
section
/-! DEFINITION. The named operations over storage, the bus, the joypad register, the stack and the run state
(spec/20_memory.md, spec/60_exceptions.md), with the raising of an error as one shared operation. -/

namespace Sys2Proof.Machine

/-! ## Registers and status, one update each -/

/-- `A <- v` -/
def State.setA (s : State) (v : Byte) : State := { s with a := v }

/-- `F <- v`, all four flags. -/
def State.setF (s : State) (v : Flags) : State := { s with f := v }

/-- `SP <- v` -/
def State.setSp (s : State) (v : Word) : State := { s with sp := v }

/-- `pc <- v` -/
def State.setPc (s : State) (v : Word) : State := { s with pc := v }

/-- `run <- v` -/
def State.setRun (s : State) (v : RunState) : State := { s with run := v }

/-- `IME <- v` -/
def State.setIme (s : State) (v : Bool) : State := { s with ime := v }

/-! ## The address map -/

/-- The regions of R33, one per row of its table (the two rows of R42 apart). -/
inductive Region where
  | rom
  | vram
  | cartRam
  | wram
  | echo
  | oam
  | unusable
  | joypad
  | unimplementedIo
  | hram
  | interruptEnable
deriving DecidableEq, Repr

/-- The region of an address, R33. -/
def regionAt (a : Nat) : Region :=
  if a < 0x8000 then .rom
  else if a < 0xA000 then .vram
  else if a < 0xC000 then .cartRam
  else if a < 0xE000 then .wram
  else if a < 0xFE00 then .echo
  else if a < 0xFEA0 then .oam
  else if a < 0xFF00 then .unusable
  else if a < 0xFF01 then .joypad
  else if a < 0xFF80 then .unimplementedIo
  else if a < 0xFFFF then .hram
  else .interruptEnable

/-- The region of a 16-bit address, R33. -/
def region (a : Word) : Region := regionAt a.toNat

/-- The out-of-bounds rows of R33. -/
def Region.outOfBounds : Region → Bool
  | .cartRam | .unusable | .unimplementedIo | .interruptEnable => true
  | .rom | .vram | .wram | .echo | .oam | .joypad | .hram => false

/-- The regions that have storage of their own, R33. -/
def Region.stored : Region → Bool
  | .rom | .vram | .wram | .oam | .hram => true
  | .cartRam | .echo | .unusable | .joypad | .unimplementedIo | .interruptEnable => false

/-- Whether `a` is the address of a storage cell. -/
def isStored (a : Nat) : Bool := (regionAt a).stored

/-- The storage cell an address reaches, R45: its own, or for an echo address the WRAM cell 0x2000 below (R38). -/
def cellOf (a : Word) : Option Nat :=
  match region a with
  | .rom | .vram | .wram | .oam | .hram => some a.toNat
  | .echo => some (a - 0x2000).toNat
  | .cartRam | .unusable | .joypad | .unimplementedIo | .interruptEnable => none

/-! ## Storage -/

/-- What a cell that is not listed reads as: 0xFF in ROM, 0x00 in RAM (log entries 4 and 5). -/
def Memory.unlisted (a : Nat) : Byte := if a < 0x8000 then 0xFF else 0x00

/-- The byte of a storage cell. -/
def Memory.read : Memory → Nat → Byte
  | [], a => Memory.unlisted a
  | (k, v) :: m, a => if k = a then v else Memory.read m a

/-- The list without the cell `a`. -/
def Memory.erase (m : Memory) (a : Nat) : Memory := m.filter fun x => x.1 != a

/-- The list with `(a, v)` put before the first greater address. -/
def Memory.insert : Memory → Nat → Byte → Memory
  | [], a, v => [(a, v)]
  | (k, x) :: m, a, v => if a < k then (a, v) :: (k, x) :: m else (k, x) :: Memory.insert m a v

/-- Stores a byte, keeping the canonical form: a byte equal to the unlisted one is not listed. -/
def Memory.write (m : Memory) (a : Nat) (v : Byte) : Memory :=
  if v = Memory.unlisted a then Memory.erase m a else Memory.insert (Memory.erase m a) a v

/-- The canonical form: addresses strictly rising, storage cells only, no entry equal to the unlisted byte. -/
abbrev Memory.wf (m : Memory) : Prop :=
  m.Pairwise (fun x y => x.1 < y.1) ∧ ∀ x ∈ m, isStored x.1 = true ∧ x.2 ≠ Memory.unlisted x.1

/-- The storage whose cell `a` holds `g a`, for every cell, in canonical form. -/
@[irreducible] def Memory.build (g : Nat → Byte) : Memory :=
  (List.range 0x10000).filterMap fun a =>
    if isStored a = true ∧ g a ≠ Memory.unlisted a then some (a, g a) else none

/-! ## The joypad register -/

/-- `JoypadState` as the host has made it before the step that now begins, R152: the next of the host's inputs where one
is left, else as it was. -/
def State.drawInput (s : State) : State := { s with joypad := s.inputs.headD s.joypad, inputs := s.inputs.tail }

/-- One active-low column of the joypad register, from its direction and its action button, R154. -/
def State.joypColumn (s : State) (dir act : Bool) : Bool :=
  !((!s.p14 && dir) || (!s.p15 && act))

/-- `joyp_read()` of R154: bits 7 and 6 are 1, bits 5 and 4 the select bits, bits 3..0 the columns. -/
def State.joypRead (s : State) : Byte :=
  BitVec.ofBool true ++ BitVec.ofBool true ++ BitVec.ofBool s.p15 ++ BitVec.ofBool s.p14 ++
    BitVec.ofBool (s.joypColumn s.joypad.down s.joypad.start) ++
    BitVec.ofBool (s.joypColumn s.joypad.up s.joypad.select) ++
    BitVec.ofBool (s.joypColumn s.joypad.left s.joypad.b) ++
    BitVec.ofBool (s.joypColumn s.joypad.right s.joypad.a)

/-- `joyp_write(v)` of R155. -/
def State.joypWrite (s : State) (v : Byte) : State :=
  { s with p15 := v.getLsbD 5, p14 := v.getLsbD 4 }

/-! ## The bus -/

/-- An out-of-bounds access the policy does not let pass, R141. -/
structure OobAccess where
  addr : Word
  kind : Access
deriving DecidableEq, Repr

/-- Whether an access at `a` goes through, R44: everywhere under `Sentinel`, in bounds under `Fault`. -/
def State.permits (s : State) (a : Word) : Bool :=
  match s.params.oobPolicy with
  | .sentinel => true
  | .fault => !(region a).outOfBounds

/-- The byte an access that goes through reads at `a`, R45. -/
def State.readByte (s : State) (a : Word) : Byte :=
  match region a with
  | .rom | .vram | .wram | .oam | .hram => Memory.read s.mem a.toNat
  | .echo => Memory.read s.mem (a - 0x2000).toNat
  | .joypad => s.joypRead
  | .cartRam | .unusable | .unimplementedIo | .interruptEnable => s.params.oobSentinel

/-- The state after an access that goes through writes `v` at `a`, R46. -/
def State.writeByte (s : State) (a : Word) (v : Byte) : State :=
  match region a with
  | .rom => s
  | .vram | .wram | .oam | .hram => { s with mem := Memory.write s.mem a.toNat v }
  | .echo => { s with mem := Memory.write s.mem (a - 0x2000).toNat v }
  | .joypad => s.joypWrite v
  | .cartRam | .unusable | .unimplementedIo | .interruptEnable => s

/-- `read(a)` of R45. -/
def State.busRead (s : State) (a : Word) : Except OobAccess Byte :=
  if s.permits a then .ok (s.readByte a) else .error { addr := a, kind := .read }

/-- `write(a, v)` of R46. -/
def State.busWrite (s : State) (a : Word) (v : Byte) : Except OobAccess State :=
  if s.permits a then .ok (s.writeByte a v) else .error { addr := a, kind := .write }

/-- `MemRead(a, 2)` of R12: the low byte at `a`, the high byte at `a + 1`. -/
def State.busRead16 (s : State) (a : Word) : Except OobAccess Word := do
  let lo ← s.busRead a
  let hi ← s.busRead (a + 1)
  return wordOf hi lo

/-- `MemWrite(a, 2, v)` of R12: the low byte at `a`, then the high byte at `a + 1`. -/
def State.busWrite16 (s : State) (a v : Word) : Except OobAccess State := do
  let t ← s.busWrite a (loByte v)
  t.busWrite (a + 1) (hiByte v)

/-! ## The stack -/

/-- The push of R121 and R130: the high byte at `SP - 1`, then the low byte at `SP - 2`. -/
def State.push (s : State) (v : Word) : Except OobAccess State := do
  let s₁ := s.setSp (s.sp - 1)
  let s₂ ← s₁.busWrite s₁.sp (hiByte v)
  let s₃ := s₂.setSp (s₂.sp - 1)
  s₃.busWrite s₃.sp (loByte v)

/-- The pop of R122 and R132: the low byte at `SP`, then the high byte at `SP + 1`, and SP past both. -/
def State.pop (s : State) : Except OobAccess (Word × State) := do
  let v ← s.busRead16 s.sp
  return (v, s.setSp (s.sp + 2))

/-! ## The program counter, errors and the end of a step -/

/-- `pc <- next`, where the instruction has `n` bytes, R23. -/
def State.advance (s : State) (n : Word) : State := s.setPc (s.pc + n)

/-- Raising an error, R13, R140 and R141: the run state becomes Faulted with the pc of the instruction, and nothing else
is written. The errors of CORE are terminal; there is no trap entry and no return (R144, R145), only reset. -/
def State.raise (s : State) (info : FaultInfo) : State := s.setRun (.faulted s.pc info)

/-- The end of an instruction begun in `s`, R141: the state it made, or, after an out-of-bounds access that does not go
through, `s` with the error raised, all writes of the step discarded. -/
def State.finish (s : State) : Except OobAccess State → Host.Outcome State Fault Refusal
  | .ok t => .next t
  | .error x => .next (s.raise (.outOfBounds x.addr x.kind))

/-- The answer of a meaning. -/
abbrev Answer := Host.Outcome State Fault Refusal

/-- Reads the byte at `a` and ends the instruction with the state `k` makes of it. -/
def State.onRead (s : State) (a : Word) (k : Byte → State) : Answer :=
  s.finish (do
    let v ← s.busRead a
    return k v)

/-- Writes `v` at `a` and ends the instruction with the state `k` makes of the written state. -/
def State.onWrite (s : State) (a : Word) (v : Byte) (k : State → State) : Answer :=
  s.finish (do
    let t ← s.busWrite a v
    return k t)

/-! ## Placing an instruction -/

/-- Whether the three bytes at `pc` all lie in storage. -/
def State.pcStored (s : State) : Bool :=
  (cellOf s.pc).isSome && (cellOf (s.pc + 1)).isSome && (cellOf (s.pc + 2)).isSome

/-- Stores a byte in the cell of `a`, ROM included, as loading an image does; nothing where there is no cell. -/
def State.place (s : State) (a : Word) (v : Byte) : State :=
  match cellOf a with
  | some k => { s with mem := Memory.write s.mem k v }
  | none => s

/-- A Running CPU with the bytes at its pc; where the three bytes at pc are not all storage, at 0x0100 (log entry 14). -/
def State.placeBytes (s : State) (bytes : List Byte) : State :=
  let s₀ := (s.setRun .running).setPc (if s.pcStored then s.pc else 0x0100)
  let s₁ := s₀.place s₀.pc (bytes.getD 0 0)
  let s₂ := s₁.place (s₀.pc + 1) (bytes.getD 1 0)
  s₂.place (s₀.pc + 2) (bytes.getD 2 0)

end Sys2Proof.Machine
end

