-- ==== Sys2Proof/Machine/Operands.lean ====
section
/-! DEFINITION. Every operand form: registers, pairs, conditions, effective addresses and branch targets
(spec/10_state.md R17-R20, spec/30_encoding.md R61 and R62, spec/42_loads.md R99, spec/43_control.md R123 and R124). -/

namespace Sys2Proof.Machine

/-! ## The flags register -/

/-- The byte F reads as: Z N H C in bits 7..4, bits 3..0 zero, R20. -/
def Flags.toByte (f : Flags) : Byte :=
  BitVec.ofBool f.z ++ BitVec.ofBool f.n ++ BitVec.ofBool f.h ++ BitVec.ofBool f.c ++ (0 : BitVec 4)

/-- Writing a byte to F keeps bits 7..4 only, R20. -/
def flagsOfByte (v : Byte) : Flags where
  z := v.getLsbD 7
  n := v.getLsbD 6
  h := v.getLsbD 5
  c := v.getLsbD 4

/-! ## 8-bit registers -/

/-- `x[r]`, R11 and R17. -/
def State.getR8 (s : State) : R8 → Byte
  | .a => s.a
  | .b => s.b
  | .c => s.c
  | .d => s.d
  | .e => s.e
  | .h => s.h
  | .l => s.l

/-- `x[r] <- v`, R11 and R17. -/
def State.setR8 (s : State) (r : R8) (v : Byte) : State :=
  match r with
  | .a => s.setA v
  | .b => { s with b := v }
  | .c => { s with c := v }
  | .d => { s with d := v }
  | .e => { s with e := v }
  | .h => { s with h := v }
  | .l => { s with l := v }

/-! ## Pairs, R19 -/

/-- `BC = B : C` -/
def State.bc (s : State) : Word := wordOf s.b s.c

/-- `DE = D : E` -/
def State.de (s : State) : Word := wordOf s.d s.e

/-- `HL = H : L` -/
def State.hl (s : State) : Word := wordOf s.h s.l

/-- `AF = A : F` -/
def State.af (s : State) : Word := wordOf s.a s.f.toByte

/-- `BC <- v` -/
def State.setBc (s : State) (v : Word) : State := { s with b := hiByte v, c := loByte v }

/-- `DE <- v` -/
def State.setDe (s : State) (v : Word) : State := { s with d := hiByte v, e := loByte v }

/-- `HL <- v` -/
def State.setHl (s : State) (v : Word) : State := { s with h := hiByte v, l := loByte v }

/-- `AF <- v`, the low byte through R20. -/
def State.setAf (s : State) (v : Word) : State := (s.setA (hiByte v)).setF (flagsOfByte (loByte v))

/-- `x[rr]` of group 1. -/
def State.getPair (s : State) : Pair → Word
  | .bc => s.bc
  | .de => s.de
  | .hl => s.hl
  | .sp => s.sp

/-- `x[rr] <- v` of group 1. -/
def State.setPair (s : State) (rr : Pair) (v : Word) : State :=
  match rr with
  | .bc => s.setBc v
  | .de => s.setDe v
  | .hl => s.setHl v
  | .sp => s.setSp v

/-- `x[rr]` of group 2. -/
def State.getStackPair (s : State) : StackPair → Word
  | .bc => s.bc
  | .de => s.de
  | .hl => s.hl
  | .af => s.af

/-- `x[rr] <- v` of group 2. -/
def State.setStackPair (s : State) (rr : StackPair) (v : Word) : State :=
  match rr with
  | .bc => s.setBc v
  | .de => s.setDe v
  | .hl => s.setHl v
  | .af => s.setAf v

/-! ## Conditions, addresses and targets -/

/-- `cond(cc)`, R123. -/
def State.holds (s : State) : Cond → Bool
  | .nz => !s.f.z
  | .z => s.f.z
  | .nc => !s.f.c
  | .c => s.f.c

/-- The high-page address `0xFF00 + n` of the (a8) and (C) forms, R62 and R99. -/
def highPage (n : Byte) : Word := 0xFF00 + n.setWidth 16

/-- The relative target `(next + e) mod 65536`, R124. -/
def relTarget (next : Word) (e : Byte) : Word := next + sext e

end Sys2Proof.Machine
end

