-- ==== Sys2Proof/Machine/Flags.lean ====
section
/-! DEFINITION. Every flag computation, on exact integers narrowed at the end (spec/40_inc_dec.md R71, spec/41_alu.md
R79-R98, spec/42_loads.md R120). -/

namespace Sys2Proof.Machine

/-- The result byte and the flags of an 8-bit operation. -/
structure AluResult where
  val : Byte
  flags : Flags
deriving DecidableEq, Repr

namespace Alu

/-- `increment(v)` of R71; Carry is not produced and keeps its value. -/
def increment (v : Byte) (f : Flags) : AluResult :=
  let r := (v.toNat + 1) % 256
  { val := BitVec.ofNat 8 r
    flags := { f with z := decide (r = 0), n := false, h := decide (v.toNat % 16 = 0xF) } }

/-- `decrement(v)` of R71; Carry is not produced and keeps its value. -/
def decrement (v : Byte) (f : Flags) : AluResult :=
  let r := ((v.toNat : Int) - 1) % 256
  { val := BitVec.ofInt 8 r
    flags := { f with z := decide (r = 0), n := true, h := decide (v.toNat % 16 = 0) } }

/-- ADD, R81. -/
def add (a v : Byte) : AluResult :=
  let t := a.toNat + v.toNat
  { val := BitVec.ofNat 8 t
    flags := { z := decide (t % 256 = 0), n := false, h := decide (a.toNat % 16 + v.toNat % 16 > 0xF), c := decide (t > 0xFF) } }

/-- ADC, R82, with the carry-in `c`. -/
def adc (a v : Byte) (c : Bool) : AluResult :=
  let t := a.toNat + v.toNat + c.toNat
  { val := BitVec.ofNat 8 t
    flags := { z := decide (t % 256 = 0), n := false,
               h := decide (a.toNat % 16 + v.toNat % 16 + c.toNat > 0xF), c := decide (t > 0xFF) } }

/-- SUB, R83. -/
def sub (a v : Byte) : AluResult :=
  let t := (a.toNat : Int) - v.toNat
  { val := BitVec.ofInt 8 t
    flags := { z := decide (t % 256 = 0), n := true, h := decide (a.toNat % 16 < v.toNat % 16), c := decide (a.toNat < v.toNat) } }

/-- SBC, R84, with the borrow-in `c`. -/
def sbc (a v : Byte) (c : Bool) : AluResult :=
  let t := (a.toNat : Int) - v.toNat - c.toNat
  { val := BitVec.ofInt 8 t
    flags := { z := decide (t % 256 = 0), n := true, h := decide (a.toNat % 16 < v.toNat % 16 + c.toNat),
               c := decide (a.toNat < v.toNat + c.toNat) } }

/-- AND, R85. -/
def and (a v : Byte) : AluResult :=
  { val := a &&& v, flags := { z := decide (a &&& v = 0), n := false, h := true, c := false } }

/-- XOR, R86. -/
def xor (a v : Byte) : AluResult :=
  { val := a ^^^ v, flags := { z := decide (a ^^^ v = 0), n := false, h := false, c := false } }

/-- OR, R87. -/
def or (a v : Byte) : AluResult :=
  { val := a ||| v, flags := { z := decide (a ||| v = 0), n := false, h := false, c := false } }

/-- CP, R88: the flags of the subtraction R83, the result discarded. -/
def cp (a v : Byte) : Flags := (sub a v).flags

/-- DAA after an addition, R89: the adjusted value before narrowing, and C. -/
def daaAdd (a : Byte) (f : Flags) : Int × Bool :=
  let high := f.c || decide (a.toNat > 0x99)
  let a₁ : Int := if high then a.toNat + 0x60 else a.toNat
  let a₂ : Int := if f.h || decide (a₁ % 16 > 0x09) then a₁ + 0x06 else a₁
  (a₂, high)

/-- DAA after a subtraction, R89. -/
def daaSub (a : Byte) (f : Flags) : Int × Bool :=
  let a₁ : Int := if f.c then a.toNat - 0x60 else a.toNat
  let a₂ : Int := if f.h then a₁ - 0x06 else a₁
  (a₂, f.c)

/-- DAA, R89. -/
def daa (a : Byte) (f : Flags) : AluResult :=
  let r := if f.n then daaSub a f else daaAdd a f
  { val := BitVec.ofInt 8 r.1, flags := { f with z := decide (r.1 % 256 = 0), h := false, c := r.2 } }

/-- CPL, R90. -/
def cpl (a : Byte) (f : Flags) : AluResult :=
  { val := ~~~a, flags := { f with n := true, h := true } }

/-- SCF, R91. -/
def scf (f : Flags) : Flags := { f with n := false, h := false, c := true }

/-- CCF, R92. -/
def ccf (f : Flags) : Flags := { f with n := false, h := false, c := !f.c }

/-- The flags of the four rotates of A, R93-R96: Z, N and H are 0. -/
def rotateFlags (c : Bool) : Flags := { z := false, n := false, h := false, c := c }

/-- RLCA, R93. -/
def rlca (a : Byte) : AluResult :=
  let b := a.getLsbD 7
  { val := a <<< 1 ||| (BitVec.ofBool b).setWidth 8, flags := rotateFlags b }

/-- RRCA, R94. -/
def rrca (a : Byte) : AluResult :=
  let b := a.getLsbD 0
  { val := a >>> 1 ||| (BitVec.ofBool b).setWidth 8 <<< 7, flags := rotateFlags b }

/-- RLA, R95, with the old Carry. -/
def rla (a : Byte) (c : Bool) : AluResult :=
  { val := a <<< 1 ||| (BitVec.ofBool c).setWidth 8, flags := rotateFlags (a.getLsbD 7) }

/-- RRA, R96, with the old Carry. -/
def rra (a : Byte) (c : Bool) : AluResult :=
  { val := a >>> 1 ||| (BitVec.ofBool c).setWidth 8 <<< 7, flags := rotateFlags (a.getLsbD 0) }

/-- The sum of ADD HL,rr, R97. -/
def addHl (a b : Word) : Word := BitVec.ofNat 16 (a.toNat + b.toNat)

/-- The flags of ADD HL,rr, R97: Z is kept. -/
def addHlFlags (a b : Word) (f : Flags) : Flags :=
  { f with n := false, h := decide (a.toNat % 0x1000 + b.toNat % 0x1000 > 0xFFF), c := decide (a.toNat + b.toNat > 0xFFFF) }

/-- The sum of ADD SP,e8 and LD HL,SP+e8, R98 and R120. -/
def addSp (s : Word) (u : Byte) : Word := s + sext u

/-- The flags of ADD SP,e8 and LD HL,SP+e8, R98 and R120: carries out of the unsigned low byte. -/
def addSpFlags (s : Word) (u : Byte) : Flags :=
  { z := false, n := false, h := decide (s.toNat % 16 + u.toNat % 16 > 0xF), c := decide (s.toNat % 256 + u.toNat > 0xFF) }

end Alu

/-- Writes the result of an 8-bit operation to A and F, R80. -/
def State.putA (s : State) (r : AluResult) : State := (s.setA r.val).setF r.flags

end Sys2Proof.Machine
end

