-- ==== Sys2Proof/Machine/Arith.lean ====
section
/-! DEFINITION. The meanings of spec/41_alu.md, R81-R98. -/

namespace Sys2Proof.Machine

/-- ADD A,r8, R81. -/
def execAddAR8 (r : R8) (s : State) : Answer := .next ((s.putA (Alu.add s.a (s.getR8 r))).advance 1)

/-- ADD A,(HL), R81. -/
def execAddAAtHl (s : State) : Answer := s.onRead s.hl fun v => (s.putA (Alu.add s.a v)).advance 1

/-- ADD A,n8, R81. -/
def execAddAN8 (n : Byte) (s : State) : Answer := .next ((s.putA (Alu.add s.a n)).advance 2)

/-- ADC A,r8, R82. -/
def execAdcAR8 (r : R8) (s : State) : Answer := .next ((s.putA (Alu.adc s.a (s.getR8 r) s.f.c)).advance 1)

/-- ADC A,(HL), R82. -/
def execAdcAAtHl (s : State) : Answer := s.onRead s.hl fun v => (s.putA (Alu.adc s.a v s.f.c)).advance 1

/-- ADC A,n8, R82. -/
def execAdcAN8 (n : Byte) (s : State) : Answer := .next ((s.putA (Alu.adc s.a n s.f.c)).advance 2)

/-- SUB A,r8, R83. -/
def execSubAR8 (r : R8) (s : State) : Answer := .next ((s.putA (Alu.sub s.a (s.getR8 r))).advance 1)

/-- SUB A,(HL), R83. -/
def execSubAAtHl (s : State) : Answer := s.onRead s.hl fun v => (s.putA (Alu.sub s.a v)).advance 1

/-- SUB A,n8, R83. -/
def execSubAN8 (n : Byte) (s : State) : Answer := .next ((s.putA (Alu.sub s.a n)).advance 2)

/-- SBC A,r8, R84. -/
def execSbcAR8 (r : R8) (s : State) : Answer := .next ((s.putA (Alu.sbc s.a (s.getR8 r) s.f.c)).advance 1)

/-- SBC A,(HL), R84. -/
def execSbcAAtHl (s : State) : Answer := s.onRead s.hl fun v => (s.putA (Alu.sbc s.a v s.f.c)).advance 1

/-- SBC A,n8, R84. -/
def execSbcAN8 (n : Byte) (s : State) : Answer := .next ((s.putA (Alu.sbc s.a n s.f.c)).advance 2)

/-- AND A,r8, R85. -/
def execAndAR8 (r : R8) (s : State) : Answer := .next ((s.putA (Alu.and s.a (s.getR8 r))).advance 1)

/-- AND A,(HL), R85. -/
def execAndAAtHl (s : State) : Answer := s.onRead s.hl fun v => (s.putA (Alu.and s.a v)).advance 1

/-- AND A,n8, R85. -/
def execAndAN8 (n : Byte) (s : State) : Answer := .next ((s.putA (Alu.and s.a n)).advance 2)

/-- XOR A,r8, R86. -/
def execXorAR8 (r : R8) (s : State) : Answer := .next ((s.putA (Alu.xor s.a (s.getR8 r))).advance 1)

/-- XOR A,(HL), R86. -/
def execXorAAtHl (s : State) : Answer := s.onRead s.hl fun v => (s.putA (Alu.xor s.a v)).advance 1

/-- XOR A,n8, R86. -/
def execXorAN8 (n : Byte) (s : State) : Answer := .next ((s.putA (Alu.xor s.a n)).advance 2)

/-- OR A,r8, R87. -/
def execOrAR8 (r : R8) (s : State) : Answer := .next ((s.putA (Alu.or s.a (s.getR8 r))).advance 1)

/-- OR A,(HL), R87. -/
def execOrAAtHl (s : State) : Answer := s.onRead s.hl fun v => (s.putA (Alu.or s.a v)).advance 1

/-- OR A,n8, R87. -/
def execOrAN8 (n : Byte) (s : State) : Answer := .next ((s.putA (Alu.or s.a n)).advance 2)

/-- CP A,r8, R88. -/
def execCpAR8 (r : R8) (s : State) : Answer := .next ((s.setF (Alu.cp s.a (s.getR8 r))).advance 1)

/-- CP A,(HL), R88. -/
def execCpAAtHl (s : State) : Answer := s.onRead s.hl fun v => (s.setF (Alu.cp s.a v)).advance 1

/-- CP A,n8, R88. -/
def execCpAN8 (n : Byte) (s : State) : Answer := .next ((s.setF (Alu.cp s.a n)).advance 2)

/-- DAA, R89. -/
def execDaa (s : State) : Answer := .next ((s.putA (Alu.daa s.a s.f)).advance 1)

/-- CPL, R90. -/
def execCpl (s : State) : Answer := .next ((s.putA (Alu.cpl s.a s.f)).advance 1)

/-- SCF, R91. -/
def execScf (s : State) : Answer := .next ((s.setF (Alu.scf s.f)).advance 1)

/-- CCF, R92. -/
def execCcf (s : State) : Answer := .next ((s.setF (Alu.ccf s.f)).advance 1)

/-- RLCA, R93. -/
def execRlca (s : State) : Answer := .next ((s.putA (Alu.rlca s.a)).advance 1)

/-- RRCA, R94. -/
def execRrca (s : State) : Answer := .next ((s.putA (Alu.rrca s.a)).advance 1)

/-- RLA, R95. -/
def execRla (s : State) : Answer := .next ((s.putA (Alu.rla s.a s.f.c)).advance 1)

/-- RRA, R96. -/
def execRra (s : State) : Answer := .next ((s.putA (Alu.rra s.a s.f.c)).advance 1)

/-- ADD HL,rr, R97. -/
def execAddHlRr (rr : Pair) (s : State) : Answer :=
  let x := s.hl
  let y := s.getPair rr
  .next (((s.setHl (Alu.addHl x y)).setF (Alu.addHlFlags x y s.f)).advance 1)

/-- ADD SP,e8, R98. -/
def execAddSpE8 (e : Byte) (s : State) : Answer :=
  .next (((s.setSp (Alu.addSp s.sp e)).setF (Alu.addSpFlags s.sp e)).advance 2)

end Sys2Proof.Machine
end

