-- ==== Sys2Proof/Machine/Control.lean ====
section
/-! DEFINITION. The meanings of spec/43_control.md, R125-R133. -/

namespace Sys2Proof.Machine

/-- JR e8, R125. -/
def execJrE8 (e : Byte) (s : State) : Answer := .next (s.setPc (relTarget (s.pc + 2) e))

/-- JR cc,e8, R126. -/
def execJrCcE8 (cc : Cond) (e : Byte) (s : State) : Answer :=
  if s.holds cc then .next (s.setPc (relTarget (s.pc + 2) e)) else .next (s.advance 2)

/-- JP a16, R127. -/
def execJpA16 (addr : Word) (s : State) : Answer := .next (s.setPc addr)

/-- JP cc,a16, R128. -/
def execJpCcA16 (cc : Cond) (addr : Word) (s : State) : Answer :=
  if s.holds cc then .next (s.setPc addr) else .next (s.advance 3)

/-- JP HL, R129. -/
def execJpHl (s : State) : Answer := .next (s.setPc s.hl)

/-- Pushes `next` and jumps, R130: both CALL forms take it. -/
def State.call (s : State) (addr : Word) : Answer :=
  s.finish (do
    let t ← s.push (s.pc + 3)
    return t.setPc addr)

/-- CALL a16, R130. -/
def execCallA16 (addr : Word) (s : State) : Answer := s.call addr

/-- CALL cc,a16, R131. -/
def execCallCcA16 (cc : Cond) (addr : Word) (s : State) : Answer :=
  if s.holds cc then s.call addr else .next (s.advance 3)

/-- Pops the program counter, R132: both RET forms take it. -/
def State.popPc (s : State) : Answer :=
  s.finish (do
    let (v, t) ← s.pop
    return t.setPc v)

/-- RET, R132. -/
def execRet (s : State) : Answer := s.popPc

/-- RET cc, R133. -/
def execRetCc (cc : Cond) (s : State) : Answer := if s.holds cc then s.popPc else .next (s.advance 1)

end Sys2Proof.Machine
end

