-- ==== Sys2Proof/Machine/IncDec.lean ====
section
/-! DEFINITION. The meanings of spec/40_inc_dec.md, R73-R78. -/

namespace Sys2Proof.Machine

/-- INC r8, R73. -/
def execIncR8 (r : R8) (s : State) : Answer :=
  let x := Alu.increment (s.getR8 r) s.f
  .next (((s.setR8 r x.val).setF x.flags).advance 1)

/-- DEC r8, R74. -/
def execDecR8 (r : R8) (s : State) : Answer :=
  let x := Alu.decrement (s.getR8 r) s.f
  .next (((s.setR8 r x.val).setF x.flags).advance 1)

/-- Reads the byte at HL, applies an operation that gives a byte and flags, and writes both, R75 and R76. -/
def State.modifyAtHl (s : State) (op : Byte → Flags → AluResult) : Answer :=
  s.finish (do
    let v ← s.busRead s.hl
    let x := op v s.f
    let t ← s.busWrite s.hl x.val
    return (t.setF x.flags).advance 1)

/-- INC (HL), R75. -/
def execIncAtHl (s : State) : Answer := s.modifyAtHl Alu.increment

/-- DEC (HL), R76. -/
def execDecAtHl (s : State) : Answer := s.modifyAtHl Alu.decrement

/-- INC rr, R77. -/
def execIncRr (rr : Pair) (s : State) : Answer := .next ((s.setPair rr (s.getPair rr + 1)).advance 1)

/-- DEC rr, R78. -/
def execDecRr (rr : Pair) (s : State) : Answer := .next ((s.setPair rr (s.getPair rr - 1)).advance 1)

end Sys2Proof.Machine
end

