-- ==== Sys2Proof/Machine/Loads.lean ====
section
/-! DEFINITION. The meanings of spec/42_loads.md, R100-R122. -/

namespace Sys2Proof.Machine

/-- LD r8,r8', R100. -/
def execLdR8R8 (dst src : R8) (s : State) : Answer := .next ((s.setR8 dst (s.getR8 src)).advance 1)

/-- LD r8,(HL), R101. -/
def execLdR8AtHl (dst : R8) (s : State) : Answer := s.onRead s.hl fun v => (s.setR8 dst v).advance 1

/-- LD (HL),r8, R102. -/
def execLdAtHlR8 (src : R8) (s : State) : Answer := s.onWrite s.hl (s.getR8 src) fun t => t.advance 1

/-- LD r8,n8, R103. -/
def execLdR8N8 (r : R8) (n : Byte) (s : State) : Answer := .next ((s.setR8 r n).advance 2)

/-- LD (HL),n8, R104. -/
def execLdAtHlN8 (n : Byte) (s : State) : Answer := s.onWrite s.hl n fun t => t.advance 2

/-- LD rr,n16, R105. -/
def execLdRrN16 (rr : Pair) (n : Word) (s : State) : Answer := .next ((s.setPair rr n).advance 3)

/-- LD A,(BC), R106. -/
def execLdAAtBc (s : State) : Answer := s.onRead s.bc fun v => (s.setA v).advance 1

/-- LD A,(DE), R106. -/
def execLdAAtDe (s : State) : Answer := s.onRead s.de fun v => (s.setA v).advance 1

/-- LD (BC),A, R107. -/
def execLdAtBcA (s : State) : Answer := s.onWrite s.bc s.a fun t => t.advance 1

/-- LD (DE),A, R107. -/
def execLdAtDeA (s : State) : Answer := s.onWrite s.de s.a fun t => t.advance 1

/-- LD A,(HL+), R108. -/
def execLdAAtHlInc (s : State) : Answer :=
  s.onRead s.hl fun v => ((s.setHl (s.hl + 1)).setA v).advance 1

/-- LD A,(HL-), R109. -/
def execLdAAtHlDec (s : State) : Answer :=
  s.onRead s.hl fun v => ((s.setHl (s.hl - 1)).setA v).advance 1

/-- LD (HL+),A, R110. -/
def execLdAtHlIncA (s : State) : Answer := s.onWrite s.hl s.a fun t => (t.setHl (s.hl + 1)).advance 1

/-- LD (HL-),A, R111. -/
def execLdAtHlDecA (s : State) : Answer := s.onWrite s.hl s.a fun t => (t.setHl (s.hl - 1)).advance 1

/-- LDH (a8),A, R112. -/
def execLdhA8A (n : Byte) (s : State) : Answer := s.onWrite (highPage n) s.a fun t => t.advance 2

/-- LDH A,(a8), R113. -/
def execLdhAA8 (n : Byte) (s : State) : Answer :=
  s.onRead (highPage n) fun v => (s.setA v).advance 2

/-- LD (C),A, R114. -/
def execLdAtCA (s : State) : Answer := s.onWrite (highPage s.c) s.a fun t => t.advance 1

/-- LD A,(C), R115. -/
def execLdAAtC (s : State) : Answer := s.onRead (highPage s.c) fun v => (s.setA v).advance 1

/-- LD (a16),A, R116. -/
def execLdA16A (addr : Word) (s : State) : Answer := s.onWrite addr s.a fun t => t.advance 3

/-- LD A,(a16), R117. -/
def execLdAA16 (addr : Word) (s : State) : Answer := s.onRead addr fun v => (s.setA v).advance 3

/-- LD (a16),SP, R118. -/
def execLdA16Sp (addr : Word) (s : State) : Answer :=
  s.finish (do
    let t ← s.busWrite16 addr s.sp
    return t.advance 3)

/-- LD SP,HL, R119. -/
def execLdSpHl (s : State) : Answer := .next ((s.setSp s.hl).advance 1)

/-- LD HL,SP+e8, R120. -/
def execLdHlSpE8 (e : Byte) (s : State) : Answer :=
  .next (((s.setHl (Alu.addSp s.sp e)).setF (Alu.addSpFlags s.sp e)).advance 2)

/-- PUSH rr, R121. -/
def execPushRr (rr : StackPair) (s : State) : Answer :=
  s.finish (do
    let t ← s.push (s.getStackPair rr)
    return t.advance 1)

/-- POP rr, R122. -/
def execPopRr (rr : StackPair) (s : State) : Answer :=
  s.finish (do
    let (v, t) ← s.pop
    return (t.setStackPair rr v).advance 1)

end Sys2Proof.Machine
end

