-- ==== Sys2Proof/Machine/System.lean ====
section
/-! DEFINITION. The meanings of spec/44_system.md, R134-R138. -/

namespace Sys2Proof.Machine

/-- NOP, R134. -/
def execNop (s : State) : Answer := .next (s.advance 1)

/-- HALT, R135: Halted, with pc past the instruction. -/
def execHalt (s : State) : Answer := .next ((s.advance 1).setRun .halted)

/-- STOP, R136: Halted, with pc past both bytes; the second byte is not examined. -/
def execStop (_ignored : Byte) (s : State) : Answer := .next ((s.advance 2).setRun .halted)

/-- DI, R137. -/
def execDi (s : State) : Answer := .next ((s.setIme false).advance 1)

/-- A refused opcode, R138: DecodeError is raised, and nothing but the run state is written (R140). -/
def State.refuse (s : State) (op : Byte) : Answer := .next (s.raise (.decodeError op))

/-- An unassigned opcode, R138. -/
def execRefusedUnassigned (op : Byte) (s : State) : Answer := s.refuse op

/-- The CB prefix, refused, R138. -/
def execRefusedCbPrefix (s : State) : Answer := s.refuse 0xCB

/-- RETI, refused, R138. -/
def execRefusedReti (s : State) : Answer := s.refuse 0xD9

/-- EI, refused, R138. -/
def execRefusedEi (s : State) : Answer := s.refuse 0xFB

/-- RST 00H, refused, R138. -/
def execRefusedRst00H (s : State) : Answer := s.refuse 0xC7

/-- RST 08H, refused, R138. -/
def execRefusedRst08H (s : State) : Answer := s.refuse 0xCF

/-- RST 10H, refused, R138. -/
def execRefusedRst10H (s : State) : Answer := s.refuse 0xD7

/-- RST 18H, refused, R138. -/
def execRefusedRst18H (s : State) : Answer := s.refuse 0xDF

/-- RST 20H, refused, R138. -/
def execRefusedRst20H (s : State) : Answer := s.refuse 0xE7

/-- RST 28H, refused, R138. -/
def execRefusedRst28H (s : State) : Answer := s.refuse 0xEF

/-- RST 30H, refused, R138. -/
def execRefusedRst30H (s : State) : Answer := s.refuse 0xF7

/-- RST 38H, refused, R138. -/
def execRefusedRst38H (s : State) : Answer := s.refuse 0xFF

end Sys2Proof.Machine
end

