-- ==== Sys2Proof/Machine/Dispatch.lean ====
section
/-! DEFINITION. One instruction, as its rule executes it (spec/10_state.md R27): one arm per constructor. -/

namespace Sys2Proof.Machine

def exec (i : Instr) (s : State) : Host.Outcome State Fault Refusal :=
  match i with
  | .nop => Sys2Proof.Machine.execNop s
  | .ldRrN16 rr n => Sys2Proof.Machine.execLdRrN16 rr n s
  | .ldAtBcA => Sys2Proof.Machine.execLdAtBcA s
  | .incRr rr => Sys2Proof.Machine.execIncRr rr s
  | .incR8 r => Sys2Proof.Machine.execIncR8 r s
  | .decR8 r => Sys2Proof.Machine.execDecR8 r s
  | .ldR8N8 r n => Sys2Proof.Machine.execLdR8N8 r n s
  | .rlca => Sys2Proof.Machine.execRlca s
  | .ldA16Sp addr => Sys2Proof.Machine.execLdA16Sp addr s
  | .addHlRr rr => Sys2Proof.Machine.execAddHlRr rr s
  | .ldAAtBc => Sys2Proof.Machine.execLdAAtBc s
  | .decRr rr => Sys2Proof.Machine.execDecRr rr s
  | .rrca => Sys2Proof.Machine.execRrca s
  | .stop ignored => Sys2Proof.Machine.execStop ignored s
  | .ldAtDeA => Sys2Proof.Machine.execLdAtDeA s
  | .rla => Sys2Proof.Machine.execRla s
  | .jrE8 e => Sys2Proof.Machine.execJrE8 e s
  | .ldAAtDe => Sys2Proof.Machine.execLdAAtDe s
  | .rra => Sys2Proof.Machine.execRra s
  | .jrCcE8 cc e => Sys2Proof.Machine.execJrCcE8 cc e s
  | .ldAtHlIncA => Sys2Proof.Machine.execLdAtHlIncA s
  | .daa => Sys2Proof.Machine.execDaa s
  | .ldAAtHlInc => Sys2Proof.Machine.execLdAAtHlInc s
  | .cpl => Sys2Proof.Machine.execCpl s
  | .ldAtHlDecA => Sys2Proof.Machine.execLdAtHlDecA s
  | .incAtHl => Sys2Proof.Machine.execIncAtHl s
  | .decAtHl => Sys2Proof.Machine.execDecAtHl s
  | .ldAtHlN8 n => Sys2Proof.Machine.execLdAtHlN8 n s
  | .scf => Sys2Proof.Machine.execScf s
  | .ldAAtHlDec => Sys2Proof.Machine.execLdAAtHlDec s
  | .ccf => Sys2Proof.Machine.execCcf s
  | .ldR8R8 dst src => Sys2Proof.Machine.execLdR8R8 dst src s
  | .ldR8AtHl dst => Sys2Proof.Machine.execLdR8AtHl dst s
  | .ldAtHlR8 src => Sys2Proof.Machine.execLdAtHlR8 src s
  | .halt => Sys2Proof.Machine.execHalt s
  | .addAR8 r => Sys2Proof.Machine.execAddAR8 r s
  | .addAAtHl => Sys2Proof.Machine.execAddAAtHl s
  | .adcAR8 r => Sys2Proof.Machine.execAdcAR8 r s
  | .adcAAtHl => Sys2Proof.Machine.execAdcAAtHl s
  | .subAR8 r => Sys2Proof.Machine.execSubAR8 r s
  | .subAAtHl => Sys2Proof.Machine.execSubAAtHl s
  | .sbcAR8 r => Sys2Proof.Machine.execSbcAR8 r s
  | .sbcAAtHl => Sys2Proof.Machine.execSbcAAtHl s
  | .andAR8 r => Sys2Proof.Machine.execAndAR8 r s
  | .andAAtHl => Sys2Proof.Machine.execAndAAtHl s
  | .xorAR8 r => Sys2Proof.Machine.execXorAR8 r s
  | .xorAAtHl => Sys2Proof.Machine.execXorAAtHl s
  | .orAR8 r => Sys2Proof.Machine.execOrAR8 r s
  | .orAAtHl => Sys2Proof.Machine.execOrAAtHl s
  | .cpAR8 r => Sys2Proof.Machine.execCpAR8 r s
  | .cpAAtHl => Sys2Proof.Machine.execCpAAtHl s
  | .retCc cc => Sys2Proof.Machine.execRetCc cc s
  | .popRr rr => Sys2Proof.Machine.execPopRr rr s
  | .jpCcA16 cc addr => Sys2Proof.Machine.execJpCcA16 cc addr s
  | .jpA16 addr => Sys2Proof.Machine.execJpA16 addr s
  | .callCcA16 cc addr => Sys2Proof.Machine.execCallCcA16 cc addr s
  | .pushRr rr => Sys2Proof.Machine.execPushRr rr s
  | .addAN8 n => Sys2Proof.Machine.execAddAN8 n s
  | .ret => Sys2Proof.Machine.execRet s
  | .callA16 addr => Sys2Proof.Machine.execCallA16 addr s
  | .adcAN8 n => Sys2Proof.Machine.execAdcAN8 n s
  | .subAN8 n => Sys2Proof.Machine.execSubAN8 n s
  | .sbcAN8 n => Sys2Proof.Machine.execSbcAN8 n s
  | .ldhA8A n => Sys2Proof.Machine.execLdhA8A n s
  | .ldAtCA => Sys2Proof.Machine.execLdAtCA s
  | .andAN8 n => Sys2Proof.Machine.execAndAN8 n s
  | .addSpE8 e => Sys2Proof.Machine.execAddSpE8 e s
  | .jpHl => Sys2Proof.Machine.execJpHl s
  | .ldA16A addr => Sys2Proof.Machine.execLdA16A addr s
  | .xorAN8 n => Sys2Proof.Machine.execXorAN8 n s
  | .ldhAA8 n => Sys2Proof.Machine.execLdhAA8 n s
  | .ldAAtC => Sys2Proof.Machine.execLdAAtC s
  | .di => Sys2Proof.Machine.execDi s
  | .orAN8 n => Sys2Proof.Machine.execOrAN8 n s
  | .ldHlSpE8 e => Sys2Proof.Machine.execLdHlSpE8 e s
  | .ldSpHl => Sys2Proof.Machine.execLdSpHl s
  | .ldAA16 addr => Sys2Proof.Machine.execLdAA16 addr s
  | .cpAN8 n => Sys2Proof.Machine.execCpAN8 n s
  | .refusedRst00H => Sys2Proof.Machine.execRefusedRst00H s
  | .refusedCbPrefix => Sys2Proof.Machine.execRefusedCbPrefix s
  | .refusedRst08H => Sys2Proof.Machine.execRefusedRst08H s
  | .refusedUnassigned op => Sys2Proof.Machine.execRefusedUnassigned op s
  | .refusedRst10H => Sys2Proof.Machine.execRefusedRst10H s
  | .refusedReti => Sys2Proof.Machine.execRefusedReti s
  | .refusedRst18H => Sys2Proof.Machine.execRefusedRst18H s
  | .refusedRst20H => Sys2Proof.Machine.execRefusedRst20H s
  | .refusedRst28H => Sys2Proof.Machine.execRefusedRst28H s
  | .refusedRst30H => Sys2Proof.Machine.execRefusedRst30H s
  | .refusedEi => Sys2Proof.Machine.execRefusedEi s
  | .refusedRst38H => Sys2Proof.Machine.execRefusedRst38H s

end Sys2Proof.Machine
end

