-- ==== Sys2Proof/WellFormed.lean ====
section
/-! DEFINITION. Which terms of `Instr` are instructions of the machine. The operand types already exclude every bad
register, pair and condition; the one operand that can be wrong is the byte of an unassigned opcode. -/

namespace Sys2Proof

/-- The unassigned opcodes of R66. -/
def unassignedOpcodes : List Byte :=
  [0xD3, 0xDB, 0xDD, 0xE3, 0xE4, 0xEB, 0xEC, 0xED, 0xF4, 0xFC, 0xFD]

/-- An unassigned opcode carries one of the eleven bytes of R66; every other term is an instruction. -/
def Instr.wf : Instr → Bool
  | .refusedUnassigned op => unassignedOpcodes.contains op
  | _ => true

end Sys2Proof
end

