-- ==== Sys2Proof/Decode.lean ====
section
/-! DEFINITION. Decoding and encoding (spec/30_encoding.md R58-R66). The decoder reads the fields of R61; the encoder is
written from the bit strings of the instruction rules. -/

namespace Sys2Proof

/-- The r8 code of R61; `none` is code 6, the byte at HL. -/
def r8OfCode : Nat → Option R8
  | 0 => some .b
  | 1 => some .c
  | 2 => some .d
  | 3 => some .e
  | 4 => some .h
  | 5 => some .l
  | 6 => none
  | _ => some .a

/-- The group-1 pair code of R61. -/
def pairOfCode : Nat → Pair
  | 0 => .bc
  | 1 => .de
  | 2 => .hl
  | _ => .sp

/-- The group-2 pair code of R61. -/
def stackPairOfCode : Nat → StackPair
  | 0 => .bc
  | 1 => .de
  | 2 => .hl
  | _ => .af

/-- The condition code of R61. -/
def condOfCode : Nat → Cond
  | 0 => .nz
  | 1 => .z
  | 2 => .nc
  | _ => .c

/-- The three formats of R60: an opcode alone, with one immediate byte, with two (low byte first). -/
inductive OpForm where
  | f1 (i : Instr)
  | f2 (k : Byte → Instr)
  | f3 (k : Word → Instr)

/-- The length in bytes of a format, R60; a refused opcode, to which R59 gives none, counts 1 (log entry 26). -/
def OpForm.length : OpForm → Nat
  | .f1 _ => 1
  | .f2 _ => 2
  | .f3 _ => 3

/-- A form over an r8 code: the register form, or the form of code 6. -/
def formR8 (code : Nat) (reg : R8 → OpForm) (atHl : OpForm) : OpForm :=
  match r8OfCode code with
  | some r => reg r
  | none => atHl

/-- Block 0 of R61 (`op[7:6] = 0`): rows 0x-3x of R64. -/
def decodeBlock0 (y z : Nat) : OpForm :=
  match z with
  | 0 =>
    match y with
    | 0 => .f1 .nop
    | 1 => .f3 .ldA16Sp
    | 2 => .f2 .stop
    | 3 => .f2 .jrE8
    | _ => .f2 (.jrCcE8 (condOfCode (y % 4)))
  | 1 => if y % 2 = 0 then .f3 (.ldRrN16 (pairOfCode (y / 2))) else .f1 (.addHlRr (pairOfCode (y / 2)))
  | 2 =>
    match y with
    | 0 => .f1 .ldAtBcA
    | 1 => .f1 .ldAAtBc
    | 2 => .f1 .ldAtDeA
    | 3 => .f1 .ldAAtDe
    | 4 => .f1 .ldAtHlIncA
    | 5 => .f1 .ldAAtHlInc
    | 6 => .f1 .ldAtHlDecA
    | _ => .f1 .ldAAtHlDec
  | 3 => if y % 2 = 0 then .f1 (.incRr (pairOfCode (y / 2))) else .f1 (.decRr (pairOfCode (y / 2)))
  | 4 => formR8 y (fun r => .f1 (.incR8 r)) (.f1 .incAtHl)
  | 5 => formR8 y (fun r => .f1 (.decR8 r)) (.f1 .decAtHl)
  | 6 => formR8 y (fun r => .f2 (.ldR8N8 r)) (.f2 .ldAtHlN8)
  | _ =>
    match y with
    | 0 => .f1 .rlca
    | 1 => .f1 .rrca
    | 2 => .f1 .rla
    | 3 => .f1 .rra
    | 4 => .f1 .daa
    | 5 => .f1 .cpl
    | 6 => .f1 .scf
    | _ => .f1 .ccf

/-- Block 1 of R61: LD r8,r8' and its (HL) forms; both codes 6 is HALT (R63). -/
def decodeBlock1 (y z : Nat) : OpForm :=
  match r8OfCode y, r8OfCode z with
  | some dst, some src => .f1 (.ldR8R8 dst src)
  | some dst, none => .f1 (.ldR8AtHl dst)
  | none, some src => .f1 (.ldAtHlR8 src)
  | none, none => .f1 .halt

/-- Block 2 of R61: the ALU operations on a register or the byte at HL. -/
def decodeBlock2 (y z : Nat) : OpForm :=
  match y with
  | 0 => formR8 z (fun r => .f1 (.addAR8 r)) (.f1 .addAAtHl)
  | 1 => formR8 z (fun r => .f1 (.adcAR8 r)) (.f1 .adcAAtHl)
  | 2 => formR8 z (fun r => .f1 (.subAR8 r)) (.f1 .subAAtHl)
  | 3 => formR8 z (fun r => .f1 (.sbcAR8 r)) (.f1 .sbcAAtHl)
  | 4 => formR8 z (fun r => .f1 (.andAR8 r)) (.f1 .andAAtHl)
  | 5 => formR8 z (fun r => .f1 (.xorAR8 r)) (.f1 .xorAAtHl)
  | 6 => formR8 z (fun r => .f1 (.orAR8 r)) (.f1 .orAAtHl)
  | _ => formR8 z (fun r => .f1 (.cpAR8 r)) (.f1 .cpAAtHl)

/-- Block 3 of R61: control, stack, ALU with an immediate, high page, and the refused opcodes of R66. -/
def decodeBlock3 (op : Byte) (y z : Nat) : OpForm :=
  match z with
  | 0 =>
    match y with
    | 4 => .f2 .ldhA8A
    | 5 => .f2 .addSpE8
    | 6 => .f2 .ldhAA8
    | 7 => .f2 .ldHlSpE8
    | _ => .f1 (.retCc (condOfCode y))
  | 1 =>
    match y with
    | 1 => .f1 .ret
    | 3 => .f1 .refusedReti
    | 5 => .f1 .jpHl
    | 7 => .f1 .ldSpHl
    | _ => .f1 (.popRr (stackPairOfCode (y / 2)))
  | 2 =>
    match y with
    | 4 => .f1 .ldAtCA
    | 5 => .f3 .ldA16A
    | 6 => .f1 .ldAAtC
    | 7 => .f3 .ldAA16
    | _ => .f3 (.jpCcA16 (condOfCode y))
  | 3 =>
    match y with
    | 0 => .f3 .jpA16
    | 1 => .f1 .refusedCbPrefix
    | 6 => .f1 .di
    | 7 => .f1 .refusedEi
    | _ => .f1 (.refusedUnassigned op)
  | 4 => if y < 4 then .f3 (.callCcA16 (condOfCode y)) else .f1 (.refusedUnassigned op)
  | 5 =>
    match y with
    | 1 => .f3 .callA16
    | 3 => .f1 (.refusedUnassigned op)
    | 5 => .f1 (.refusedUnassigned op)
    | 7 => .f1 (.refusedUnassigned op)
    | _ => .f1 (.pushRr (stackPairOfCode (y / 2)))
  | 6 =>
    match y with
    | 0 => .f2 .addAN8
    | 1 => .f2 .adcAN8
    | 2 => .f2 .subAN8
    | 3 => .f2 .sbcAN8
    | 4 => .f2 .andAN8
    | 5 => .f2 .xorAN8
    | 6 => .f2 .orAN8
    | _ => .f2 .cpAN8
  | _ =>
    match y with
    | 0 => .f1 .refusedRst00H
    | 1 => .f1 .refusedRst08H
    | 2 => .f1 .refusedRst10H
    | 3 => .f1 .refusedRst18H
    | 4 => .f1 .refusedRst20H
    | 5 => .f1 .refusedRst28H
    | 6 => .f1 .refusedRst30H
    | _ => .f1 .refusedRst38H

/-- `decode(op)` of R63, total on the 256 opcode values: the fields `x`, `y`, `z` of R61 select the form. -/
def decodeOpcode (op : Byte) : OpForm :=
  let y := op.toNat / 8 % 8
  let z := op.toNat % 8
  match op.toNat / 64 with
  | 0 => decodeBlock0 y z
  | 1 => decodeBlock1 y z
  | 2 => decodeBlock2 y z
  | _ => decodeBlock3 op y z

/-- Why a list of bytes is no instruction. Every opcode value decodes (a refused one to its `refused…` constructor), so
the only reason is that bytes are missing. -/
inductive DecodeReject where
  /-- There is no opcode byte. -/
  | noOpcode
  /-- The opcode's immediate bytes are not all there; `length` is the instruction's length, R59. -/
  | truncated (op : Byte) (length : Nat)
deriving DecidableEq, Repr

/-- Decodes the first instruction of a byte list and gives the bytes after it, R59 and R60. -/
def decode : List Byte → Except DecodeReject (Instr × List Byte)
  | [] => .error .noOpcode
  | op :: rest =>
    match decodeOpcode op, rest with
    | .f1 i, rest => .ok (i, rest)
    | .f2 k, n :: rest => .ok (k n, rest)
    | .f3 k, lo :: hi :: rest => .ok (k (wordOf hi lo), rest)
    | .f2 _, [] => .error (.truncated op 2)
    | .f3 _, _ => .error (.truncated op 3)

/-- The instruction, the rest of the bytes forgotten. -/
def decodeInstr (bytes : List Byte) : Option Instr :=
  match decode bytes with
  | .ok (i, _) => some i
  | .error _ => none

/-- Byte `k` of an instruction whose bits are `w`, numbered as spec/opcode_table.json numbers them, of which `nbits` are
given and the bits above are 0. -/
def tableByte (nbits w k : Nat) : Byte :=
  BitVec.ofNat 8 (w % 2 ^ nbits / 2 ^ (8 * k))

/-- The three bytes of the longest instruction, first byte first. -/
def tableBytes (nbits w : Nat) : List Byte :=
  [tableByte nbits w 0, tableByte nbits w 1, tableByte nbits w 2]

/-- The instruction the decoder reads from the table's word. -/
def decodeTableWord (nbits w : Nat) : Option Instr :=
  decodeInstr (tableBytes nbits w)

/-- The r8 code of a register, R61. -/
def R8.code : R8 → Nat
  | .b => 0
  | .c => 1
  | .d => 2
  | .e => 3
  | .h => 4
  | .l => 5
  | .a => 7

/-- The group-1 code of a pair, R61. -/
def Pair.code : Pair → Nat
  | .bc => 0
  | .de => 1
  | .hl => 2
  | .sp => 3

/-- The group-2 code of a pair, R61. -/
def StackPair.code : StackPair → Nat
  | .bc => 0
  | .de => 1
  | .hl => 2
  | .af => 3

/-- The code of a condition, R61. -/
def Cond.code : Cond → Nat
  | .nz => 0
  | .z => 1
  | .nc => 2
  | .c => 3

/-- The opcode byte with the bits of `base` and a field code shifted into place. -/
def opByte (base code shift : Nat) : Byte := BitVec.ofNat 8 (base + code * 2 ^ shift)

/-- The bytes of an instruction: the bit strings of the instruction rules, immediates little-endian (R47, R60). -/
def encode : Instr → List Byte
  | .nop => [0x00]
  | .ldRrN16 rr n => [opByte 0x01 rr.code 4, loByte n, hiByte n]
  | .ldAtBcA => [0x02]
  | .incRr rr => [opByte 0x03 rr.code 4]
  | .incR8 r => [opByte 0x04 r.code 3]
  | .decR8 r => [opByte 0x05 r.code 3]
  | .ldR8N8 r n => [opByte 0x06 r.code 3, n]
  | .rlca => [0x07]
  | .ldA16Sp addr => [0x08, loByte addr, hiByte addr]
  | .addHlRr rr => [opByte 0x09 rr.code 4]
  | .ldAAtBc => [0x0A]
  | .decRr rr => [opByte 0x0B rr.code 4]
  | .rrca => [0x0F]
  | .stop ignored => [0x10, ignored]
  | .ldAtDeA => [0x12]
  | .rla => [0x17]
  | .jrE8 e => [0x18, e]
  | .ldAAtDe => [0x1A]
  | .rra => [0x1F]
  | .jrCcE8 cc e => [opByte 0x20 cc.code 3, e]
  | .ldAtHlIncA => [0x22]
  | .daa => [0x27]
  | .ldAAtHlInc => [0x2A]
  | .cpl => [0x2F]
  | .ldAtHlDecA => [0x32]
  | .incAtHl => [0x34]
  | .decAtHl => [0x35]
  | .ldAtHlN8 n => [0x36, n]
  | .scf => [0x37]
  | .ldAAtHlDec => [0x3A]
  | .ccf => [0x3F]
  | .ldR8R8 dst src => [opByte (0x40 + dst.code * 8) src.code 0]
  | .ldR8AtHl dst => [opByte 0x46 dst.code 3]
  | .ldAtHlR8 src => [opByte 0x70 src.code 0]
  | .halt => [0x76]
  | .addAR8 r => [opByte 0x80 r.code 0]
  | .addAAtHl => [0x86]
  | .adcAR8 r => [opByte 0x88 r.code 0]
  | .adcAAtHl => [0x8E]
  | .subAR8 r => [opByte 0x90 r.code 0]
  | .subAAtHl => [0x96]
  | .sbcAR8 r => [opByte 0x98 r.code 0]
  | .sbcAAtHl => [0x9E]
  | .andAR8 r => [opByte 0xA0 r.code 0]
  | .andAAtHl => [0xA6]
  | .xorAR8 r => [opByte 0xA8 r.code 0]
  | .xorAAtHl => [0xAE]
  | .orAR8 r => [opByte 0xB0 r.code 0]
  | .orAAtHl => [0xB6]
  | .cpAR8 r => [opByte 0xB8 r.code 0]
  | .cpAAtHl => [0xBE]
  | .retCc cc => [opByte 0xC0 cc.code 3]
  | .popRr rr => [opByte 0xC1 rr.code 4]
  | .jpCcA16 cc addr => [opByte 0xC2 cc.code 3, loByte addr, hiByte addr]
  | .jpA16 addr => [0xC3, loByte addr, hiByte addr]
  | .callCcA16 cc addr => [opByte 0xC4 cc.code 3, loByte addr, hiByte addr]
  | .pushRr rr => [opByte 0xC5 rr.code 4]
  | .addAN8 n => [0xC6, n]
  | .ret => [0xC9]
  | .callA16 addr => [0xCD, loByte addr, hiByte addr]
  | .adcAN8 n => [0xCE, n]
  | .subAN8 n => [0xD6, n]
  | .sbcAN8 n => [0xDE, n]
  | .ldhA8A n => [0xE0, n]
  | .ldAtCA => [0xE2]
  | .andAN8 n => [0xE6, n]
  | .addSpE8 e => [0xE8, e]
  | .jpHl => [0xE9]
  | .ldA16A addr => [0xEA, loByte addr, hiByte addr]
  | .xorAN8 n => [0xEE, n]
  | .ldhAA8 n => [0xF0, n]
  | .ldAAtC => [0xF2]
  | .di => [0xF3]
  | .orAN8 n => [0xF6, n]
  | .ldHlSpE8 e => [0xF8, e]
  | .ldSpHl => [0xF9]
  | .ldAA16 addr => [0xFA, loByte addr, hiByte addr]
  | .cpAN8 n => [0xFE, n]
  | .refusedRst00H => [0xC7]
  | .refusedCbPrefix => [0xCB]
  | .refusedRst08H => [0xCF]
  | .refusedUnassigned op => [op]
  | .refusedRst10H => [0xD7]
  | .refusedReti => [0xD9]
  | .refusedRst18H => [0xDF]
  | .refusedRst20H => [0xE7]
  | .refusedRst28H => [0xEF]
  | .refusedRst30H => [0xF7]
  | .refusedEi => [0xFB]
  | .refusedRst38H => [0xFF]

/-- The length in bytes of an instruction, R59 (a refused opcode counts its one byte, though nothing follows it). -/
def Instr.length (i : Instr) : Nat := (encode i).length

end Sys2Proof
end

