-- ==== Sys2Proof/Machine/Fetch.lean ====
section
/-! DEFINITION. Fetching and decoding the instruction at pc (spec/10_state.md R27, spec/30_encoding.md R59). -/

namespace Sys2Proof.Machine

/-- The instruction at pc, R27 and R59: the opcode byte is read and decoded, then its immediate bytes are read at
`pc + 1` and `pc + 2`. A refused opcode has none, so no immediate of it is read (R140). -/
def State.fetch (s : State) : Except OobAccess Instr := do
  let op ← s.busRead s.pc
  match decodeOpcode op with
  | .f1 i => return i
  | .f2 k =>
    let n ← s.busRead (s.pc + 1)
    return k n
  | .f3 k =>
    let n ← s.busRead16 (s.pc + 1)
    return k n

end Sys2Proof.Machine
end

