-- ==== Sys2Proof/Machine/Step.lean ====
section
/-! DEFINITION. The step of the CPU (spec/10_state.md R25-R27). -/

namespace Sys2Proof.Machine

/-- One step, R27: a Running CPU fetches and executes one instruction, with `JoypadState` as the host has made it before
the step (R152); an out-of-bounds fetch that does not go through raises its error (R141). A Halted or Faulted CPU has no
step. -/
def step (s : State) : Host.Outcome State Fault Refusal :=
  match s.run with
  | .running =>
    match s.drawInput.fetch with
    | .ok i => exec i s.drawInput
    | .error x => s.drawInput.finish (.error x)
  | .halted => .fault .halted
  | .faulted pc info => .fault (.faulted pc info)

/-- `s` with the instruction whose bits are `w` (of which `nbits` are given) where `step` fetches its next one
(log entry 14). -/
def State.withFetchWord (s : State) (nbits w : Nat) : State := s.placeBytes (tableBytes nbits w)

end Sys2Proof.Machine
end

