-- ==== Sys2Proof/Machine/Renderer.lean ====
section
/-! DEFINITION. The PPU tile renderer (spec/60_exceptions.md R142, R156-R158): a function of VRAM, which writes nothing. -/

namespace Sys2Proof.Machine

/-- The address of the first of the 16 bytes of tile `t`, R156. -/
def Params.tileAddr (p : Params) (t : Byte) : Nat := p.tileBase + 16 * t.toNat

/-- The address of the map entry of column `tx` and row `ty`, row-major, R157. -/
def Params.mapAddr (p : Params) (tx ty : Nat) : Nat := p.mapBase + ty * p.mapW + tx

/-- The 2-bit color index of a pixel from the two bytes of its row, R156: bit 7 is the leftmost pixel, the second byte
the high plane. -/
def planePixel (lo hi : Byte) (x : Nat) : BitVec 2 :=
  BitVec.ofBool (hi.getLsbD (7 - x)) ++ BitVec.ofBool (lo.getLsbD (7 - x))

/-- `tilepixel(t, x, y)`, R156 and R157. -/
def State.tilePixel (s : State) (t : Byte) (x y : Nat) : BitVec 2 :=
  let base := Params.tileAddr s.params t
  planePixel (Memory.read s.mem (base + 2 * y)) (Memory.read s.mem (base + 2 * y + 1)) x

/-- The map entry of column `tx` and row `ty`, R157. -/
def State.mapEntry (s : State) (tx ty : Nat) : Byte := Memory.read s.mem (Params.mapAddr s.params tx ty)

/-- The color index at column `x` and row `y` of the framebuffer, R157. -/
def State.pixel (s : State) (x y : Nat) : BitVec 2 :=
  s.tilePixel (s.mapEntry (x / 8) (y / 8)) (x % 8) (y % 8)

/-- Rows, top first, of color indices, leftmost first, R157. -/
abbrev Framebuffer := List (List (BitVec 2))

/-- The renderer's error, R139 and R142. -/
inductive RenderError where
  /-- InvalidTileIndex: the map entry at this column and row names a tile that lies outside VRAM. -/
  | invalidTileIndex (tx ty : Nat)
deriving DecidableEq, Repr

/-- Whether the 16 bytes of tile `t` lie in VRAM, R142. -/
def Params.tileInVram (p : Params) (t : Byte) : Bool :=
  decide (0x8000 ≤ Params.tileAddr p t) && decide (Params.tileAddr p t + 16 ≤ 0xA000)

/-- The map positions, row-major. -/
def Params.mapPositions (p : Params) : List (Nat × Nat) :=
  (List.range p.mapH).flatMap fun ty => (List.range p.mapW).map fun tx => (tx, ty)

/-- The framebuffer of R157: `8 * MAP_H` rows of `8 * MAP_W` color indices. -/
def State.framebuffer (s : State) : Framebuffer :=
  (List.range (8 * s.params.mapH)).map fun y => (List.range (8 * s.params.mapW)).map fun x => s.pixel x y

/-- `render()`, R142 and R157: the first map position whose tile lies outside VRAM is reported, else the framebuffer. -/
def State.render (s : State) : Except RenderError Framebuffer :=
  match (Params.mapPositions s.params).find? fun q => !Params.tileInVram s.params (s.mapEntry q.1 q.2) with
  | some q => .error (.invalidTileIndex q.1 q.2)
  | none => .ok s.framebuffer

end Sys2Proof.Machine
end

