-- ==== Sys2Proof/Machine/HostPort.lean ====
section
/-! DEFINITION. What the host may do to CORE between steps (spec/60_exceptions.md R152, R159;
spec/70_reset_and_hazards.md R160, R161). Observing is reading a field of the state; rendering is `State.render`. -/

namespace Sys2Proof.Machine

/-- ROM byte `a` after loading an image, R34 and R161: image byte `a - ROM_BASE` where there is one, else `ROM_FILL`. -/
def Params.romByte (p : Params) (image : List Byte) (a : Nat) : Byte :=
  if p.romBase ≤ a then image.getD (a - p.romBase) p.romFill else p.romFill

/-- The storage right after reset, R160: ROM as `rom` says, all of RAM as `RAM_INIT` says. -/
def Params.storage (p : Params) (rom : Nat → Byte) : Memory :=
  Memory.build fun a => if a < 0x8000 then rom a else Memory.read p.ramInit a

/-- The state `reset` writes, R160, over a given storage; the parameters and `JoypadState`, now and later, are not reset. -/
def Params.afterReset (p : Params) (mem : Memory) (joypad : JoypadState) (inputs : List JoypadState) : State where
  a := p.resetRegs.a
  b := p.resetRegs.b
  c := p.resetRegs.c
  d := p.resetRegs.d
  e := p.resetRegs.e
  h := p.resetRegs.h
  l := p.resetRegs.l
  f := flagsOfByte p.resetRegs.f
  sp := p.resetRegs.sp
  pc := p.resetPc
  ime := false
  run := .running
  p15 := false
  p14 := false
  mem := mem
  joypad := joypad
  inputs := inputs
  params := p

/-- Why the host's load is refused. -/
inductive LoadError where
  /-- The image is longer than `ROM_SIZE`, R161. -/
  | imageTooLong
  /-- The configuration is not well-formed, R142. -/
  | badConfiguration
deriving DecidableEq, Repr

/-- The host loads a program image, R159 and R161: the state after reset with that image, or an error and no reset. An
ill-formed configuration is refused here, at load (R142; log entry 20). DESIGN CHOICE, log entry 25, safe: where the image
is too long as well, the spec gives no order of the two refusals, and the configuration's is reported. -/
def State.load (s : State) (image : List Byte) : Except LoadError State :=
  if ¬s.params.wf then .error .badConfiguration
  else if Config.romSize < image.length then .error .imageTooLong
  else .ok (Params.afterReset s.params (Params.storage s.params (Params.romByte s.params image)) s.joypad s.inputs)

/-- The host requests reset, R160: the image is what ROM holds, since nothing but a load writes ROM (log entry 17). -/
def State.hostReset (s : State) : State :=
  Params.afterReset s.params (Params.storage s.params (Memory.read s.mem)) s.joypad s.inputs

/-- The host replaces `JoypadState` and leaves it so, R152. -/
def State.setInput (s : State) (joypad : JoypadState) : State := { s with joypad := joypad, inputs := [] }

/-- What the host may do to the state, R159. -/
inductive HostAction where
  | load (image : List Byte)
  | reset
  | step
  | input (joypad : JoypadState)
deriving DecidableEq, Repr

/-- The state after an action of the host, R159: a refused load and a step of a terminal CPU leave it as it is. -/
def State.perform (s : State) : HostAction → State
  | .load image =>
    match s.load image with
    | .ok t => t
    | .error _ => s
  | .reset => s.hostReset
  | .step =>
    match Sys2Proof.Machine.step s with
    | .next t => t
    | .fault _ => s
    | .refused _ => s
  | .input joypad => s.setInput joypad

/-- The state after a list of actions, first action first. -/
def State.performAll (s : State) : List HostAction → State
  | [] => s
  | x :: xs => (s.perform x).performAll xs

end Sys2Proof.Machine
end

