-- ==== Sys2Proof/Safety.lean ====
section
/-! DEFINITION. The terms claims are made in: the invariant, the accesses an instruction makes, and the summary tables of
spec/10_state.md R18, R21, R22 of what each instruction may write. No meaning reads this file. -/

namespace Sys2Proof.Machine

/-- The invariant of the model: storage is in canonical form. -/
abbrev State.inv (s : State) : Prop := Memory.wf s.mem

/-- Whether accesses at `x` and `a` reach the same place: one storage cell (R38), or both the joypad register. -/
def samePlace (x a : Word) : Bool :=
  match cellOf x with
  | some k => cellOf a == some k
  | none => region x == .joypad && region a == .joypad

/-- The data accesses of an instruction in its rule's order (R53), each with its address and kind. The immediates are
fetched before and are not among them. -/
def State.accesses (s : State) : Instr → List OobAccess
  | .ldAtBcA => [⟨s.bc, .write⟩]
  | .ldAtDeA => [⟨s.de, .write⟩]
  | .ldAAtBc => [⟨s.bc, .read⟩]
  | .ldAAtDe => [⟨s.de, .read⟩]
  | .ldAtHlIncA | .ldAtHlDecA | .ldAtHlN8 _ | .ldAtHlR8 _ => [⟨s.hl, .write⟩]
  | .ldAAtHlInc | .ldAAtHlDec | .ldR8AtHl _ => [⟨s.hl, .read⟩]
  | .incAtHl | .decAtHl => [⟨s.hl, .read⟩, ⟨s.hl, .write⟩]
  | .addAAtHl | .adcAAtHl | .subAAtHl | .sbcAAtHl | .andAAtHl | .xorAAtHl | .orAAtHl | .cpAAtHl => [⟨s.hl, .read⟩]
  | .ldhA8A n => [⟨highPage n, .write⟩]
  | .ldhAA8 n => [⟨highPage n, .read⟩]
  | .ldAtCA => [⟨highPage s.c, .write⟩]
  | .ldAAtC => [⟨highPage s.c, .read⟩]
  | .ldA16A addr => [⟨addr, .write⟩]
  | .ldAA16 addr => [⟨addr, .read⟩]
  | .ldA16Sp addr => [⟨addr, .write⟩, ⟨addr + 1, .write⟩]
  | .pushRr _ | .callA16 _ => [⟨s.sp - 1, .write⟩, ⟨s.sp - 2, .write⟩]
  | .popRr _ | .ret => [⟨s.sp, .read⟩, ⟨s.sp + 1, .read⟩]
  | .callCcA16 cc _ => if s.holds cc then [⟨s.sp - 1, .write⟩, ⟨s.sp - 2, .write⟩] else []
  | .retCc cc => if s.holds cc then [⟨s.sp, .read⟩, ⟨s.sp + 1, .read⟩] else []
  | .nop | .ldRrN16 _ _ | .incRr _ | .incR8 _ | .decR8 _ | .ldR8N8 _ _ | .rlca | .addHlRr _ | .decRr _ | .rrca
  | .stop _ | .rla | .jrE8 _ | .rra | .jrCcE8 _ _ | .daa | .cpl | .scf | .ccf | .ldR8R8 _ _ | .halt
  | .addAR8 _ | .adcAR8 _ | .subAR8 _ | .sbcAR8 _ | .andAR8 _ | .xorAR8 _ | .orAR8 _ | .cpAR8 _
  | .jpCcA16 _ _ | .jpA16 _ | .addAN8 _ | .adcAN8 _ | .subAN8 _ | .sbcAN8 _ | .andAN8 _ | .addSpE8 _ | .jpHl
  | .xorAN8 _ | .di | .orAN8 _ | .ldHlSpE8 _ | .ldSpHl | .cpAN8 _
  | .refusedRst00H | .refusedCbPrefix | .refusedRst08H | .refusedUnassigned _ | .refusedRst10H | .refusedReti
  | .refusedRst18H | .refusedRst20H | .refusedRst28H | .refusedRst30H | .refusedEi | .refusedRst38H => []

/-- The addresses an instruction stores to. -/
def State.storedAt (s : State) (i : Instr) : List Word :=
  ((s.accesses i).filter fun x => x.kind == .write).map OobAccess.addr

/-- The first access of an instruction that does not go through, R141 and R143. -/
def State.firstDenied (s : State) (i : Instr) : Option OobAccess :=
  (s.accesses i).find? fun x => !s.permits x.addr

end Sys2Proof.Machine

namespace Sys2Proof

open Machine (Flags)

/-- The 8-bit registers a group-1 pair is made of. -/
def Pair.has : Pair → R8 → Bool
  | .bc, r => r == .b || r == .c
  | .de, r => r == .d || r == .e
  | .hl, r => r == .h || r == .l
  | .sp, _ => false

/-- The 8-bit registers a group-2 pair is made of. -/
def StackPair.has : StackPair → R8 → Bool
  | .bc, r => r == .b || r == .c
  | .de, r => r == .d || r == .e
  | .hl, r => r == .h || r == .l
  | .af, r => r == .a

/-- Which general registers an instruction may write, R18 and the instruction rules. -/
def Instr.writesR8 : Instr → R8 → Bool
  | .ldR8R8 dst _, r | .ldR8AtHl dst, r | .ldR8N8 dst _, r | .incR8 dst, r | .decR8 dst, r => r == dst
  | .addAR8 _, r | .adcAR8 _, r | .subAR8 _, r | .sbcAR8 _, r | .andAR8 _, r | .xorAR8 _, r | .orAR8 _, r
  | .addAAtHl, r | .adcAAtHl, r | .subAAtHl, r | .sbcAAtHl, r | .andAAtHl, r | .xorAAtHl, r | .orAAtHl, r
  | .addAN8 _, r | .adcAN8 _, r | .subAN8 _, r | .sbcAN8 _, r | .andAN8 _, r | .xorAN8 _, r | .orAN8 _, r
  | .rlca, r | .rrca, r | .rla, r | .rra, r | .daa, r | .cpl, r
  | .ldAAtBc, r | .ldAAtDe, r | .ldhAA8 _, r | .ldAAtC, r | .ldAA16 _, r => r == .a
  | .ldAAtHlInc, r | .ldAAtHlDec, r => r == .a || r == .h || r == .l
  | .ldAtHlIncA, r | .ldAtHlDecA, r | .addHlRr _, r | .ldHlSpE8 _, r => r == .h || r == .l
  | .ldRrN16 rr _, r | .incRr rr, r | .decRr rr, r => rr.has r
  | .popRr rr, r => rr.has r
  | .nop, _ | .ldAtBcA, _ | .ldA16Sp _, _ | .stop _, _ | .ldAtDeA, _ | .jrE8 _, _ | .jrCcE8 _ _, _ | .incAtHl, _
  | .decAtHl, _ | .ldAtHlN8 _, _ | .scf, _ | .ccf, _ | .ldAtHlR8 _, _ | .halt, _ | .cpAR8 _, _ | .cpAAtHl, _
  | .retCc _, _ | .jpCcA16 _ _, _ | .jpA16 _, _ | .callCcA16 _ _, _ | .pushRr _, _ | .ret, _ | .callA16 _, _
  | .ldhA8A _, _ | .ldAtCA, _ | .addSpE8 _, _ | .jpHl, _ | .ldA16A _, _ | .di, _ | .ldSpHl, _ | .cpAN8 _, _
  | .refusedRst00H, _ | .refusedCbPrefix, _ | .refusedRst08H, _ | .refusedUnassigned _, _ | .refusedRst10H, _
  | .refusedReti, _ | .refusedRst18H, _ | .refusedRst20H, _ | .refusedRst28H, _ | .refusedRst30H, _
  | .refusedEi, _ | .refusedRst38H, _ => false

/-- Which flags an instruction may write, as the four of F: R21. -/
def Instr.writesFlags : Instr → Flags
  | .incR8 _ | .decR8 _ | .incAtHl | .decAtHl => { z := true, n := true, h := true, c := false }
  | .addAR8 _ | .adcAR8 _ | .subAR8 _ | .sbcAR8 _ | .andAR8 _ | .xorAR8 _ | .orAR8 _ | .cpAR8 _
  | .addAAtHl | .adcAAtHl | .subAAtHl | .sbcAAtHl | .andAAtHl | .xorAAtHl | .orAAtHl | .cpAAtHl
  | .addAN8 _ | .adcAN8 _ | .subAN8 _ | .sbcAN8 _ | .andAN8 _ | .xorAN8 _ | .orAN8 _ | .cpAN8 _
  | .rlca | .rrca | .rla | .rra | .addSpE8 _ | .ldHlSpE8 _ | .popRr .af => { z := true, n := true, h := true, c := true }
  | .addHlRr _ | .scf | .ccf => { z := false, n := true, h := true, c := true }
  | .daa => { z := true, n := false, h := true, c := true }
  | .cpl => { z := false, n := true, h := true, c := false }
  | .nop | .ldRrN16 _ _ | .ldAtBcA | .incRr _ | .ldR8N8 _ _ | .ldA16Sp _ | .ldAAtBc | .decRr _ | .stop _ | .ldAtDeA
  | .jrE8 _ | .ldAAtDe | .jrCcE8 _ _ | .ldAtHlIncA | .ldAAtHlInc | .ldAtHlDecA | .ldAtHlN8 _ | .ldAAtHlDec
  | .ldR8R8 _ _ | .ldR8AtHl _ | .ldAtHlR8 _ | .halt | .retCc _ | .popRr .bc | .popRr .de | .popRr .hl
  | .jpCcA16 _ _ | .jpA16 _ | .callCcA16 _ _ | .pushRr _ | .ret | .callA16 _ | .ldhA8A _ | .ldAtCA | .jpHl
  | .ldA16A _ | .ldhAA8 _ | .ldAAtC | .di | .ldSpHl | .ldAA16 _
  | .refusedRst00H | .refusedCbPrefix | .refusedRst08H | .refusedUnassigned _ | .refusedRst10H | .refusedReti
  | .refusedRst18H | .refusedRst20H | .refusedRst28H | .refusedRst30H | .refusedEi | .refusedRst38H =>
    { z := false, n := false, h := false, c := false }

/-- Which instructions may write SP, R22. -/
def Instr.writesSp : Instr → Bool
  | .ldRrN16 rr _ | .incRr rr | .decRr rr => rr == .sp
  | .ldSpHl | .addSpE8 _ | .pushRr _ | .popRr _ | .callA16 _ | .callCcA16 _ _ | .ret | .retCc _ => true
  | .nop | .ldAtBcA | .incR8 _ | .decR8 _ | .ldR8N8 _ _ | .rlca | .ldA16Sp _ | .addHlRr _ | .ldAAtBc | .rrca
  | .stop _ | .ldAtDeA | .rla | .jrE8 _ | .ldAAtDe | .rra | .jrCcE8 _ _ | .ldAtHlIncA | .daa | .ldAAtHlInc | .cpl
  | .ldAtHlDecA | .incAtHl | .decAtHl | .ldAtHlN8 _ | .scf | .ldAAtHlDec | .ccf | .ldR8R8 _ _ | .ldR8AtHl _
  | .ldAtHlR8 _ | .halt | .addAR8 _ | .addAAtHl | .adcAR8 _ | .adcAAtHl | .subAR8 _ | .subAAtHl | .sbcAR8 _
  | .sbcAAtHl | .andAR8 _ | .andAAtHl | .xorAR8 _ | .xorAAtHl | .orAR8 _ | .orAAtHl | .cpAR8 _ | .cpAAtHl
  | .jpCcA16 _ _ | .jpA16 _ | .addAN8 _ | .adcAN8 _ | .subAN8 _ | .sbcAN8 _ | .ldhA8A _ | .ldAtCA | .andAN8 _
  | .jpHl | .ldA16A _ | .xorAN8 _ | .ldhAA8 _ | .ldAAtC | .di | .orAN8 _ | .ldHlSpE8 _ | .ldAA16 _ | .cpAN8 _
  | .refusedRst00H | .refusedCbPrefix | .refusedRst08H | .refusedUnassigned _ | .refusedRst10H | .refusedReti
  | .refusedRst18H | .refusedRst20H | .refusedRst28H | .refusedRst30H | .refusedEi | .refusedRst38H => false

/-- The control transfers of spec/43_control.md: the only instructions whose next pc is not the following address. -/
def Instr.isControl : Instr → Bool
  | .jrE8 _ | .jrCcE8 _ _ | .jpA16 _ | .jpCcA16 _ _ | .jpHl | .callA16 _ | .callCcA16 _ _ | .ret | .retCc _ => true
  | .nop | .ldRrN16 _ _ | .ldAtBcA | .incRr _ | .incR8 _ | .decR8 _ | .ldR8N8 _ _ | .rlca | .ldA16Sp _ | .addHlRr _
  | .ldAAtBc | .decRr _ | .rrca | .stop _ | .ldAtDeA | .rla | .ldAAtDe | .rra | .ldAtHlIncA | .daa | .ldAAtHlInc
  | .cpl | .ldAtHlDecA | .incAtHl | .decAtHl | .ldAtHlN8 _ | .scf | .ldAAtHlDec | .ccf | .ldR8R8 _ _ | .ldR8AtHl _
  | .ldAtHlR8 _ | .halt | .addAR8 _ | .addAAtHl | .adcAR8 _ | .adcAAtHl | .subAR8 _ | .subAAtHl | .sbcAR8 _
  | .sbcAAtHl | .andAR8 _ | .andAAtHl | .xorAR8 _ | .xorAAtHl | .orAR8 _ | .orAAtHl | .cpAR8 _ | .cpAAtHl
  | .popRr _ | .pushRr _ | .addAN8 _ | .adcAN8 _ | .subAN8 _ | .sbcAN8 _ | .ldhA8A _ | .ldAtCA | .andAN8 _
  | .addSpE8 _ | .ldA16A _ | .xorAN8 _ | .ldhAA8 _ | .ldAAtC | .di | .orAN8 _ | .ldHlSpE8 _ | .ldSpHl | .ldAA16 _
  | .cpAN8 _
  | .refusedRst00H | .refusedCbPrefix | .refusedRst08H | .refusedUnassigned _ | .refusedRst10H | .refusedReti
  | .refusedRst18H | .refusedRst20H | .refusedRst28H | .refusedRst30H | .refusedEi | .refusedRst38H => false

/-- The opcode byte of a refused instruction, R66 and R138; `none` for an admitted one. -/
def Instr.refusedOp : Instr → Option Byte
  | .refusedCbPrefix => some 0xCB
  | .refusedReti => some 0xD9
  | .refusedEi => some 0xFB
  | .refusedRst00H => some 0xC7
  | .refusedRst08H => some 0xCF
  | .refusedRst10H => some 0xD7
  | .refusedRst18H => some 0xDF
  | .refusedRst20H => some 0xE7
  | .refusedRst28H => some 0xEF
  | .refusedRst30H => some 0xF7
  | .refusedRst38H => some 0xFF
  | .refusedUnassigned op => some op
  | .nop | .ldRrN16 _ _ | .ldAtBcA | .incRr _ | .incR8 _ | .decR8 _ | .ldR8N8 _ _ | .rlca | .ldA16Sp _ | .addHlRr _
  | .ldAAtBc | .decRr _ | .rrca | .stop _ | .ldAtDeA | .rla | .jrE8 _ | .ldAAtDe | .rra | .jrCcE8 _ _ | .ldAtHlIncA
  | .daa | .ldAAtHlInc | .cpl | .ldAtHlDecA | .incAtHl | .decAtHl | .ldAtHlN8 _ | .scf | .ldAAtHlDec | .ccf
  | .ldR8R8 _ _ | .ldR8AtHl _ | .ldAtHlR8 _ | .halt | .addAR8 _ | .addAAtHl | .adcAR8 _ | .adcAAtHl | .subAR8 _
  | .subAAtHl | .sbcAR8 _ | .sbcAAtHl | .andAR8 _ | .andAAtHl | .xorAR8 _ | .xorAAtHl | .orAR8 _ | .orAAtHl
  | .cpAR8 _ | .cpAAtHl | .retCc _ | .popRr _ | .jpCcA16 _ _ | .jpA16 _ | .callCcA16 _ _ | .pushRr _ | .addAN8 _
  | .ret | .callA16 _ | .adcAN8 _ | .subAN8 _ | .sbcAN8 _ | .ldhA8A _ | .ldAtCA | .andAN8 _ | .addSpE8 _ | .jpHl
  | .ldA16A _ | .xorAN8 _ | .ldhAA8 _ | .ldAAtC | .di | .orAN8 _ | .ldHlSpE8 _ | .ldSpHl | .ldAA16 _ | .cpAN8 _ => none

end Sys2Proof
end

