-- ==== Sys2Proof/Certificates/Slice0/Obligations.lean ====
section
/-! DEFINITION. The statements for the provers, from the numbered rules of spec/. Each docstring names the rule it
formalises, and the log entries (notes/assumptions) where it rests on the model's form. `BitVec.ofNat n` and
`BitVec.ofInt n` narrow an exact integer to n bits (R10). `exec` gives an instruction its effect in every run state, only
`step` looks at it (log entry 22), and an error is a next state whose run state is Faulted (log entry 10). -/

open Sys2Proof Sys2Proof.Machine

/-! ## Encoding and decoding -/

/-- Words written out from R64 and the instruction rules decode to their instructions, the bytes after them left over.
That STOP's term carries the byte R136 ignores is log entry 13 (DESIGN CHOICE), that an unassigned opcode's term carries its
byte log entry 12 (DESIGN CHOICE). The last three clauses are the model's decoder from byte lists (log entry 11, DEDUCED), not
R63's, which reads only an opcode and never faults: a list that ends inside an instruction is rejected by name. -/
def Obligations.EncodingWordsDecode : Prop :=
  decode [0x00] = .ok (.nop, []) ∧
  decode [0x21, 0x10, 0x80, 0x76] = .ok (.ldRrN16 .hl 0x8010, [0x76]) ∧
  decode [0x3C] = .ok (.incR8 .a, []) ∧
  decode [0x1D] = .ok (.decR8 .e, []) ∧
  decode [0x36, 0x42] = .ok (.ldAtHlN8 0x42, []) ∧
  decode [0x66] = .ok (.ldR8AtHl .h, []) ∧
  decode [0x75] = .ok (.ldAtHlR8 .l, []) ∧
  decode [0x76] = .ok (.halt, []) ∧
  decode [0x8B] = .ok (.adcAR8 .e, []) ∧
  decode [0xBE] = .ok (.cpAAtHl, []) ∧
  decode [0x20, 0xFD] = .ok (.jrCcE8 .nz 0xFD, []) ∧
  decode [0xDA, 0x00, 0x02] = .ok (.jpCcA16 .c 0x0200, []) ∧
  decode [0xCD, 0x08, 0x01] = .ok (.callA16 0x0108, []) ∧
  decode [0xF5] = .ok (.pushRr .af, []) ∧
  decode [0x10, 0xFF] = .ok (.stop 0xFF, []) ∧
  decode [0xD3, 0x00] = .ok (.refusedUnassigned 0xD3, [0x00]) ∧
  decode [0xCB, 0x00] = .ok (.refusedCbPrefix, [0x00]) ∧
  decode [0x10] = .error (.truncated 0x10 2) ∧
  decode [0xC3, 0x50] = .error (.truncated 0xC3 3) ∧
  decode [] = .error .noOpcode

/-- Decoding the encoding of a well-formed instruction gives it back, whatever bytes follow (R58-R65). That STOP's ignored
byte and the unassigned opcode byte are operands, and so come back too, is the model's choice (log entries 13 and 12). -/
def Obligations.DecodeOfEncode : Prop :=
  ∀ (i : Instr) (rest : List Byte), i.wf = true → decode (encode i ++ rest) = .ok (i, rest)

/-- What the decoder accepts is the encoding of a well-formed instruction; so two different encodings are two different
terms of `Instr`. That is the model's choice, not R63's: by R136 and U11 all 256 encodings 10 xx are the one STOP, and it
holds because the constructors carry STOP's ignored byte (log entry 13, DESIGN CHOICE) and the unassigned opcode byte (log
entry 12, DESIGN CHOICE). -/
def Obligations.EncodeOfDecode : Prop :=
  ∀ (bytes rest : List Byte) (i : Instr), decode bytes = .ok (i, rest) → i.wf = true ∧ bytes = encode i ++ rest

/-- The opcode byte alone determines the length, by the table of R59; a refused opcode, to which R59 gives no length, counts
its own byte (the model's choice, log entry 26). -/
def Obligations.OpcodeDeterminesLength : Prop :=
  ∀ op : Byte, (decodeOpcode op).length =
    if op ∈ ([0x06, 0x0E, 0x10, 0x16, 0x18, 0x1E, 0x20, 0x26, 0x28, 0x2E, 0x30, 0x36, 0x38, 0x3E, 0xC6, 0xCE, 0xD6,
        0xDE, 0xE0, 0xE6, 0xE8, 0xEE, 0xF0, 0xF6, 0xF8, 0xFE] : List Byte) then 2
    else if op ∈ ([0x01, 0x08, 0x11, 0x21, 0x31, 0xC2, 0xC3, 0xC4, 0xCA, 0xCC, 0xCD, 0xD2, 0xD4, 0xDA, 0xDC, 0xEA,
        0xFA] : List Byte) then 3
    else 1

/-- The refused opcodes of R66, and only they, decode to refused instructions (log entry 11), each to its own byte (the
unassigned ones share a constructor that carries it: log entry 12). -/
def Obligations.RefusedOpcodesExactly : Prop :=
  ∀ (op : Byte) (i : Instr) (rest : List Byte), decode (op :: rest) = .ok (i, []) →
    i.refusedOp =
      if op ∈ ([0xD3, 0xDB, 0xDD, 0xE3, 0xE4, 0xEB, 0xEC, 0xED, 0xF4, 0xFC, 0xFD, 0xCB, 0xC7, 0xCF, 0xD7, 0xDF, 0xE7,
          0xEF, 0xF7, 0xFF, 0xFB, 0xD9] : List Byte) then some op
      else none

/-! ## The step -/

/-- Where a Running CPU's bytes at pc decode to an instruction and its fetch goes through, the step is that
instruction's execution (R27), with `JoypadState` as the host has made it before the step (R152): the next of the host's
inputs, or as it was where none is left (that State holds them is the model's choice, log entry 2). The immediates are
read only as far as the instruction is long. -/
def Obligations.StepRunsDecodedInstruction : Prop :=
  (∀ (s u : State) (i : Instr) (rest : List Byte), s.run = .running → u = s.drawInput →
    decode [u.readByte s.pc, u.readByte (s.pc + 1), u.readByte (s.pc + 2)] = .ok (i, rest) →
    (∀ k : Nat, k < i.length → s.permits (s.pc + BitVec.ofNat 16 k) = true) →
    step s = exec i u) ∧
  (∀ s : State, s.inputs = [] → s.drawInput = s) ∧
  (∀ (s : State) (j : JoypadState) (js : List JoypadState), s.inputs = j :: js →
    s.drawInput = { s with joypad := j, inputs := js })

/-- Derived from R138, R140 and R152: a refused opcode at pc makes the run state Faulted(DecodeError, pc, op), and the CPU
writes nothing else; the immediate bytes need not be readable, since none is fetched. The next state also holds the draw of
the host's next input, with which the step begins: JoypadState as a draw of each step is R152's, the field that holds the
coming draws is the model's choice (log entry 2, DESIGN CHOICE). -/
def Obligations.RefusedOpcodeStep : Prop :=
  ∀ (s : State) (op : Byte), s.run = .running → s.permits s.pc = true → s.drawInput.readByte s.pc = op →
    op ∈ ([0xD3, 0xDB, 0xDD, 0xE3, 0xE4, 0xEB, 0xEC, 0xED, 0xF4, 0xFC, 0xFD, 0xCB, 0xC7, 0xCF, 0xD7, 0xDF, 0xE7,
      0xEF, 0xF7, 0xFF, 0xFB, 0xD9] : List Byte) →
    step s = .next { s.drawInput with run := .faulted s.pc (.decodeError op) }

/-- A Halted or Faulted CPU has no step (R25, R27), and of the host's actions only a reset takes it out of that run state
(R145, R160), or a load, which in the model is a reset with a new image. That a load may come later than R159's 'before the
first step', and so reach a terminal state, is the model's choice (log entry 19, DESIGN CHOICE); that the host's step leaves
such a state as it is, is read from R27 and R159 (log entry 9, DEDUCED). -/
def Obligations.OnlyResetLeavesTerminal : Prop :=
  (∀ s : State, s.run = .halted → step s = .fault .halted) ∧
  (∀ (s : State) (pc : Word) (info : FaultInfo), s.run = .faulted pc info → step s = .fault (.faulted pc info)) ∧
  (∀ s : State, s.run ≠ .running → s.perform .step = s ∧ ∀ j, (s.perform (.input j)).run = s.run) ∧
  (∀ s : State, s.hostReset.run = .running) ∧
  (∀ (s t : State) (image : List Byte), s.load image = .ok t → t.run = .running)

/-- The fetch under OOB_POLICY = Fault (R141, R143): the first of the opcode and immediate bytes whose address is
out-of-bounds is reported, and nothing but the run state is written. -/
def Obligations.FetchOutOfBounds : Prop :=
  (∀ s : State, s.run = .running → s.permits s.pc = false →
    step s = .next { s.drawInput with run := .faulted s.pc (.outOfBounds s.pc .read) }) ∧
  (∀ s : State, s.run = .running → s.permits s.pc = true → 2 ≤ (decodeOpcode (s.drawInput.readByte s.pc)).length →
    s.permits (s.pc + 1) = false →
    step s = .next { s.drawInput with run := .faulted s.pc (.outOfBounds (s.pc + 1) .read) }) ∧
  (∀ s : State, s.run = .running → s.permits s.pc = true → s.permits (s.pc + 1) = true →
    (decodeOpcode (s.drawInput.readByte s.pc)).length = 3 → s.permits (s.pc + 2) = false →
    step s = .next { s.drawInput with run := .faulted s.pc (.outOfBounds (s.pc + 2) .read) })

/-- R141 for the data accesses: the first that does not go through, in rule order, is reported; every write the
instruction had made before it is discarded. -/
def Obligations.DataOutOfBounds : Prop :=
  ∀ (s : State) (i : Instr) (x : OobAccess), s.firstDenied i = some x →
    exec i s = .next { s with run := .faulted s.pc (.outOfBounds x.addr x.kind) }

/-! ## Registers, flags, reset -/

/-- R19: a pair has its first-named register in the high byte; reading a pair reads both, writing a pair writes both, and
AF's low byte goes through R20. `getR8` and `setR8` reach each of the seven registers alone (R17). -/
def Obligations.RegisterFile : Prop :=
  (∀ s : State, s.bc.toNat = s.b.toNat * 256 + s.c.toNat ∧ s.de.toNat = s.d.toNat * 256 + s.e.toNat ∧
    s.hl.toNat = s.h.toNat * 256 + s.l.toNat ∧ s.af.toNat = s.a.toNat * 256 + s.f.toByte.toNat) ∧
  (∀ (s : State) (v : Word),
    s.setBc v = { s with b := BitVec.ofNat 8 (v.toNat / 256), c := BitVec.ofNat 8 (v.toNat % 256) } ∧
    s.setDe v = { s with d := BitVec.ofNat 8 (v.toNat / 256), e := BitVec.ofNat 8 (v.toNat % 256) } ∧
    s.setHl v = { s with h := BitVec.ofNat 8 (v.toNat / 256), l := BitVec.ofNat 8 (v.toNat % 256) } ∧
    s.setAf v = { s with a := BitVec.ofNat 8 (v.toNat / 256),
                         f := { z := v.getLsbD 7, n := v.getLsbD 6, h := v.getLsbD 5, c := v.getLsbD 4 } }) ∧
  (∀ (s : State) (r : R8) (v : Byte), (s.setR8 r v).getR8 r = v ∧ ∀ q, q ≠ r → (s.setR8 r v).getR8 q = s.getR8 q) ∧
  (∀ (s : State) (v : Byte), s.setR8 .a v = { s with a := v } ∧ s.setR8 .b v = { s with b := v } ∧
    s.setR8 .c v = { s with c := v } ∧ s.setR8 .d v = { s with d := v } ∧ s.setR8 .e v = { s with e := v } ∧
    s.setR8 .h v = { s with h := v } ∧ s.setR8 .l v = { s with l := v })

/-- R20: F has Z N H C in bits 7..4 and reads 0 in bits 3..0; a byte written to F keeps `v & 0xF0`. (F is held as four
Booleans, log entry 8.) -/
def Obligations.FlagsRegisterByte : Prop :=
  (∀ f : Flags, f.toByte.toNat = 128 * f.z.toNat + 64 * f.n.toNat + 32 * f.h.toNat + 16 * f.c.toNat) ∧
  (∀ v : Byte, (flagsOfByte v).toByte = v &&& 0xF0) ∧
  (∀ f : Flags, flagsOfByte f.toByte = f)

/-- R160 and R161: a load of an image of at most 0x8000 bytes, in a well-formed configuration, is a reset with that
image; a longer image is refused and no reset happens. The model's choices here: image bytes past 0x7FFF are dropped where
ROM_BASE is not 0 (log entry 16), a load is possible in every state (log entry 19), and State holds the host's coming inputs
(log entry 2). -/
def Obligations.LoadIsResetWithImage : Prop :=
  (∀ (s : State) (image : List Byte), s.params.wf → image.length ≤ 0x8000 → ∃ t : State, s.load image = .ok t ∧
    (∀ i : Nat, i < image.length → s.params.romBase + i < 0x8000 →
      some (Memory.read t.mem (s.params.romBase + i)) = image[i]?) ∧
    (∀ a : Nat, a < 0x8000 → (a < s.params.romBase ∨ s.params.romBase + image.length ≤ a) →
      Memory.read t.mem a = s.params.romFill) ∧
    (∀ a : Nat, 0x8000 ≤ a → isStored a = true → Memory.read t.mem a = Memory.read s.params.ramInit a) ∧
    t.a = s.params.resetRegs.a ∧ t.f = flagsOfByte s.params.resetRegs.f ∧ t.b = s.params.resetRegs.b ∧
    t.c = s.params.resetRegs.c ∧ t.d = s.params.resetRegs.d ∧ t.e = s.params.resetRegs.e ∧
    t.h = s.params.resetRegs.h ∧ t.l = s.params.resetRegs.l ∧ t.sp = s.params.resetRegs.sp ∧
    t.pc = s.params.resetPc ∧ t.ime = false ∧ t.p15 = false ∧ t.p14 = false ∧ t.run = .running ∧
    t.joypad = s.joypad ∧ t.inputs = s.inputs ∧ t.params = s.params) ∧
  (∀ (s : State) (image : List Byte), s.params.wf → 0x8000 < image.length → s.load image = .error .imageTooLong ∧
    s.perform (.load image) = s)

/-- The reset state has the register values of R29, and is what loading the empty image with the decided parameters and
no button pressed gives. That no image stands in ROM, that RAM is 0x00 and that no button is pressed are the model's
choices (log entries 3, 4, 5), and so is the field `inputs` (log entry 2). -/
def Obligations.ResetStateValues : Prop :=
  State.reset.a = 0x01 ∧ State.reset.f.toByte = 0xB0 ∧ State.reset.b = 0x00 ∧ State.reset.c = 0x13 ∧
  State.reset.d = 0x00 ∧ State.reset.e = 0xD8 ∧ State.reset.h = 0x01 ∧ State.reset.l = 0x4D ∧
  State.reset.sp = 0xFFFE ∧ State.reset.pc = 0x0100 ∧ State.reset.ime = false ∧ State.reset.run = .running ∧
  State.reset.p15 = false ∧ State.reset.p14 = false ∧
  (∀ s : State, s.params = Params.decided → s.joypad = JoypadState.none → s.inputs = [] →
    s.load [] = .ok State.reset)

/-- Every reset is a full re-initialisation (R160): after a load and any actions of the host but another load, a reset
gives the loaded state again, with the buttons, now and later, as the host has them (the field `inputs`: log
entry 2). That the host's reset takes the image from ROM is log entry 17. -/
def Obligations.ResetRestoresLoadedState : Prop :=
  ∀ (s t : State) (image : List Byte) (acts : List HostAction), s.load image = .ok t →
    (∀ x ∈ acts, ∀ other, x ≠ .load other) →
    (t.performAll acts).hostReset =
      { t with joypad := (t.performAll acts).joypad, inputs := (t.performAll acts).inputs }

/-! ## The bus -/

/-- A byte stored in WRAM, OAM, HRAM or VRAM is read back, under either policy (R35, R37, R39, R43). -/
def Obligations.StorageReadsBack : Prop :=
  ∀ (s : State) (a : Word) (v : Byte),
    ((0x8000 ≤ a.toNat ∧ a.toNat ≤ 0x9FFF) ∨ (0xC000 ≤ a.toNat ∧ a.toNat ≤ 0xDFFF) ∨
      (0xFE00 ≤ a.toNat ∧ a.toNat ≤ 0xFE9F) ∨ (0xFF80 ≤ a.toNat ∧ a.toNat ≤ 0xFFFE)) →
    s.permits a = true ∧ (s.writeByte a v).readByte a = v ∧ s.readByte a = Memory.read s.mem a.toNat

/-- A ROM read gives the stored byte, a ROM write changes nothing and raises nothing, whatever the policy (R34); an
access in the echo region is the same access at the WRAM address 0x2000 below (R38). -/
def Obligations.RomAndEchoAccess : Prop :=
  (∀ (s : State) (a : Word) (v : Byte), a.toNat ≤ 0x7FFF →
    s.busWrite a v = .ok s ∧ s.busRead a = .ok (Memory.read s.mem a.toNat)) ∧
  (∀ (s : State) (a : Word) (v : Byte), 0xE000 ≤ a.toNat → a.toNat ≤ 0xFDFF →
    s.busRead a = s.busRead (a - 0x2000) ∧ s.busWrite a v = s.busWrite (a - 0x2000) v)

/-- R44, with the out-of-bounds ranges of R36, R40 and R42: under `Sentinel` a read returns `OOB_SENTINEL` and a write
has no effect; under `Fault` the access raises OutOfBoundsAccess. -/
def Obligations.OutOfBoundsPolicy : Prop :=
  ∀ (s : State) (a : Word) (v : Byte),
    ((0xA000 ≤ a.toNat ∧ a.toNat ≤ 0xBFFF) ∨ (0xFEA0 ≤ a.toNat ∧ a.toNat ≤ 0xFEFF) ∨
      (0xFF01 ≤ a.toNat ∧ a.toNat ≤ 0xFF7F) ∨ a.toNat = 0xFFFF) →
    (s.params.oobPolicy = .sentinel → s.busRead a = .ok s.params.oobSentinel ∧ s.busWrite a v = .ok s) ∧
    (s.params.oobPolicy = .fault →
      s.busRead a = .error ⟨a, .read⟩ ∧ s.busWrite a v = .error ⟨a, .write⟩)

/-- A store changes what is read at the addresses of its own place only, and no register, flag or pc (R32, R50). -/
def Obligations.BusWriteFrame : Prop :=
  ∀ (s t : State) (x : Word) (v : Byte), s.busWrite x v = .ok t →
    (∀ a : Word, samePlace x a = false → t.readByte a = s.readByte a) ∧
    t = { s with mem := t.mem, p15 := t.p15, p14 := t.p14 } ∧
    (x ≠ 0xFF00 → t.p15 = s.p15 ∧ t.p14 = s.p14)

/-- R154: what a read of the joypad register returns, as a number. -/
def Obligations.JoypadRead : Prop :=
  ∀ s : State,
    let j := s.joypad
    let dir : Byte := BitVec.ofNat 8 (j.right.toNat + 2 * j.left.toNat + 4 * j.up.toNat + 8 * j.down.toNat)
    let act : Byte := BitVec.ofNat 8 (j.a.toNat + 2 * j.b.toNat + 4 * j.select.toNat + 8 * j.start.toNat)
    let sel : Byte := (if s.p14 = false then dir else 0) ||| (if s.p15 = false then act else 0)
    s.busRead 0xFF00 =
      .ok (0xC0 ||| BitVec.ofNat 8 (32 * s.p15.toNat) ||| BitVec.ofNat 8 (16 * s.p14.toNat) ||| (~~~sel &&& 0x0F))

/-- R155: a write to the joypad register sets the select bits from bits 5 and 4 and changes nothing else. -/
def Obligations.JoypadWrite : Prop :=
  ∀ (s : State) (v : Byte), s.busWrite 0xFF00 v = .ok { s with p15 := v.getLsbD 5, p14 := v.getLsbD 4 }

/-! ## 40_inc_dec.md -/

/-- R73 and R74: INC r8 and DEC r8. -/
def Obligations.IncDecR8Result : Prop :=
  (∀ r : R8, encode (.incR8 r) = [BitVec.ofNat 8 (0x04 + 8 * r.code)] ∧
    encode (.decR8 r) = [BitVec.ofNat 8 (0x05 + 8 * r.code)]) ∧
  ∀ (s : State) (r : R8),
    let v := (s.getR8 r).toNat
    exec (.incR8 r) s = .next { s.setR8 r (BitVec.ofNat 8 ((v + 1) % 256)) with
      f := { z := decide ((v + 1) % 256 = 0), n := false, h := decide (v % 16 = 15), c := s.f.c }, pc := s.pc + 1 } ∧
    exec (.decR8 r) s = .next { s.setR8 r (BitVec.ofNat 8 ((v + 255) % 256)) with
      f := { z := decide ((v + 255) % 256 = 0), n := true, h := decide (v % 16 = 0), c := s.f.c }, pc := s.pc + 1 }

/-- R75 and R76: INC (HL) and DEC (HL), also where HL is in ROM, out-of-bounds or the joypad register. -/
def Obligations.IncDecAtHlResult : Prop :=
  encode .incAtHl = [0x34] ∧ encode .decAtHl = [0x35] ∧
  (∀ s : State, s.permits s.hl = true →
    let v := (s.readByte s.hl).toNat
    exec .incAtHl s = .next { s.writeByte s.hl (BitVec.ofNat 8 ((v + 1) % 256)) with
      f := { z := decide ((v + 1) % 256 = 0), n := false, h := decide (v % 16 = 15), c := s.f.c }, pc := s.pc + 1 } ∧
    exec .decAtHl s = .next { s.writeByte s.hl (BitVec.ofNat 8 ((v + 255) % 256)) with
      f := { z := decide ((v + 255) % 256 = 0), n := true, h := decide (v % 16 = 0), c := s.f.c }, pc := s.pc + 1 }) ∧
  (∀ s : State, s.permits s.hl = false →
    exec .incAtHl s = .next { s with run := .faulted s.pc (.outOfBounds s.hl .read) } ∧
    exec .decAtHl s = .next { s with run := .faulted s.pc (.outOfBounds s.hl .read) })

/-- R77 and R78: INC rr and DEC rr write no flag. -/
def Obligations.IncDecPairResult : Prop :=
  (∀ rr : Pair, encode (.incRr rr) = [BitVec.ofNat 8 (0x03 + 16 * rr.code)] ∧
    encode (.decRr rr) = [BitVec.ofNat 8 (0x0B + 16 * rr.code)]) ∧
  ∀ (s : State) (rr : Pair),
    exec (.incRr rr) s = .next { s.setPair rr (BitVec.ofNat 16 ((s.getPair rr).toNat + 1)) with pc := s.pc + 1 } ∧
    exec (.decRr rr) s = .next { s.setPair rr (BitVec.ofInt 16 ((s.getPair rr).toNat - 1)) with pc := s.pc + 1 }

/-- R72: from `v`, Z is first set by application `v` of `decrement` (256 for 0), and by application `256 - v` of
`increment`, and the value is then 0. -/
def Obligations.LoopCounts : Prop :=
  ∀ (v : Byte) (f : Flags),
    let dec := fun k : Nat => (fun x : AluResult => Alu.decrement x.val x.flags)^[k] { val := v, flags := f }
    let inc := fun k : Nat => (fun x : AluResult => Alu.increment x.val x.flags)^[k] { val := v, flags := f }
    let nd := if v = 0 then 256 else v.toNat
    let ni := 256 - v.toNat
    ((dec nd).flags.z = true ∧ (dec nd).val = 0 ∧ ∀ k, 0 < k → k < nd → (dec k).flags.z = false) ∧
    ((inc ni).flags.z = true ∧ (inc ni).val = 0 ∧ ∀ k, 0 < k → k < ni → (inc k).flags.z = false)

/-! ## 41_alu.md -/

/-- R81 and R82: ADD and ADC, each in its three forms. -/
def Obligations.AddAdcResult : Prop :=
  (∀ r : R8, encode (.addAR8 r) = [BitVec.ofNat 8 (0x80 + r.code)] ∧
    encode (.adcAR8 r) = [BitVec.ofNat 8 (0x88 + r.code)]) ∧
  encode .addAAtHl = [0x86] ∧ encode .adcAAtHl = [0x8E] ∧
  (∀ n, encode (.addAN8 n) = [0xC6, n] ∧ encode (.adcAN8 n) = [0xCE, n]) ∧
  (∀ (s : State) (v : Byte),
    let sum := fun (c : Nat) (len : Word) => { s with
      a := BitVec.ofNat 8 (s.a.toNat + v.toNat + c),
      f := { z := decide ((s.a.toNat + v.toNat + c) % 256 = 0), n := false,
             h := decide (s.a.toNat % 16 + v.toNat % 16 + c > 15), c := decide (s.a.toNat + v.toNat + c > 255) },
      pc := s.pc + len }
    (∀ r, s.getR8 r = v → exec (.addAR8 r) s = .next (sum 0 1) ∧ exec (.adcAR8 r) s = .next (sum s.f.c.toNat 1)) ∧
    (s.permits s.hl = true → s.readByte s.hl = v →
      exec .addAAtHl s = .next (sum 0 1) ∧ exec .adcAAtHl s = .next (sum s.f.c.toNat 1)) ∧
    exec (.addAN8 v) s = .next (sum 0 2) ∧ exec (.adcAN8 v) s = .next (sum s.f.c.toNat 2)) ∧
  (∀ s : State, s.permits s.hl = false →
    exec .addAAtHl s = .next { s with run := .faulted s.pc (.outOfBounds s.hl .read) } ∧
    exec .adcAAtHl s = .next { s with run := .faulted s.pc (.outOfBounds s.hl .read) })

/-- R83, R84 and R88: SUB, SBC and CP, each in its three forms; CP writes the flags of SUB and not A. -/
def Obligations.SubSbcCpResult : Prop :=
  (∀ r : R8, encode (.subAR8 r) = [BitVec.ofNat 8 (0x90 + r.code)] ∧
    encode (.sbcAR8 r) = [BitVec.ofNat 8 (0x98 + r.code)] ∧ encode (.cpAR8 r) = [BitVec.ofNat 8 (0xB8 + r.code)]) ∧
  encode .subAAtHl = [0x96] ∧ encode .sbcAAtHl = [0x9E] ∧ encode .cpAAtHl = [0xBE] ∧
  (∀ n, encode (.subAN8 n) = [0xD6, n] ∧ encode (.sbcAN8 n) = [0xDE, n] ∧ encode (.cpAN8 n) = [0xFE, n]) ∧
  (∀ (s : State) (v : Byte),
    let flags := fun c : Nat => ({
      z := decide (((s.a.toNat : Int) - v.toNat - c) % 256 = 0), n := true,
      h := decide (s.a.toNat % 16 < v.toNat % 16 + c), c := decide (s.a.toNat < v.toNat + c) } : Flags)
    let diff := fun (c : Nat) (len : Word) => { s with
      a := BitVec.ofInt 8 ((s.a.toNat : Int) - v.toNat - c), f := flags c, pc := s.pc + len }
    let cmp := fun len : Word => { s with f := flags 0, pc := s.pc + len }
    (∀ r, s.getR8 r = v → exec (.subAR8 r) s = .next (diff 0 1) ∧ exec (.sbcAR8 r) s = .next (diff s.f.c.toNat 1) ∧
      exec (.cpAR8 r) s = .next (cmp 1)) ∧
    (s.permits s.hl = true → s.readByte s.hl = v → exec .subAAtHl s = .next (diff 0 1) ∧
      exec .sbcAAtHl s = .next (diff s.f.c.toNat 1) ∧ exec .cpAAtHl s = .next (cmp 1)) ∧
    exec (.subAN8 v) s = .next (diff 0 2) ∧ exec (.sbcAN8 v) s = .next (diff s.f.c.toNat 2) ∧
    exec (.cpAN8 v) s = .next (cmp 2)) ∧
  (∀ s : State, s.permits s.hl = false →
    exec .subAAtHl s = .next { s with run := .faulted s.pc (.outOfBounds s.hl .read) } ∧
    exec .sbcAAtHl s = .next { s with run := .faulted s.pc (.outOfBounds s.hl .read) } ∧
    exec .cpAAtHl s = .next { s with run := .faulted s.pc (.outOfBounds s.hl .read) })

/-- R85, R86 and R87: AND, XOR and OR, each in its three forms. -/
def Obligations.AndXorOrResult : Prop :=
  (∀ r : R8, encode (.andAR8 r) = [BitVec.ofNat 8 (0xA0 + r.code)] ∧
    encode (.xorAR8 r) = [BitVec.ofNat 8 (0xA8 + r.code)] ∧ encode (.orAR8 r) = [BitVec.ofNat 8 (0xB0 + r.code)]) ∧
  encode .andAAtHl = [0xA6] ∧ encode .xorAAtHl = [0xAE] ∧ encode .orAAtHl = [0xB6] ∧
  (∀ n, encode (.andAN8 n) = [0xE6, n] ∧ encode (.xorAN8 n) = [0xEE, n] ∧ encode (.orAN8 n) = [0xF6, n]) ∧
  (∀ (s : State) (v : Byte),
    let res := fun (x : Byte) (half : Bool) (len : Word) => { s with
      a := x, f := { z := decide (x = 0), n := false, h := half, c := false }, pc := s.pc + len }
    (∀ r, s.getR8 r = v → exec (.andAR8 r) s = .next (res (s.a &&& v) true 1) ∧
      exec (.xorAR8 r) s = .next (res (s.a ^^^ v) false 1) ∧ exec (.orAR8 r) s = .next (res (s.a ||| v) false 1)) ∧
    (s.permits s.hl = true → s.readByte s.hl = v → exec .andAAtHl s = .next (res (s.a &&& v) true 1) ∧
      exec .xorAAtHl s = .next (res (s.a ^^^ v) false 1) ∧ exec .orAAtHl s = .next (res (s.a ||| v) false 1)) ∧
    exec (.andAN8 v) s = .next (res (s.a &&& v) true 2) ∧ exec (.xorAN8 v) s = .next (res (s.a ^^^ v) false 2) ∧
    exec (.orAN8 v) s = .next (res (s.a ||| v) false 2)) ∧
  (∀ s : State, s.permits s.hl = false →
    exec .andAAtHl s = .next { s with run := .faulted s.pc (.outOfBounds s.hl .read) } ∧
    exec .xorAAtHl s = .next { s with run := .faulted s.pc (.outOfBounds s.hl .read) } ∧
    exec .orAAtHl s = .next { s with run := .faulted s.pc (.outOfBounds s.hl .read) })

/-- R89: DAA. After an addition 0x60 and 0x06 are added, after a subtraction subtracted; C is never cleared. -/
def Obligations.DaaResult : Prop :=
  encode .daa = [0x27] ∧
  ∀ s : State,
    let high : Bool := if s.f.n then s.f.c else s.f.c || decide (s.a.toNat > 0x99)
    let low : Bool := if s.f.n then s.f.h else s.f.h || decide (s.a.toNat % 16 > 9)
    let adjust : Int := 0x60 * high.toNat + 0x06 * low.toNat
    let res : Int := if s.f.n then s.a.toNat - adjust else s.a.toNat + adjust
    exec .daa s = .next { s with
      a := BitVec.ofInt 8 res,
      f := { z := decide (res % 256 = 0), n := s.f.n, h := false, c := high }, pc := s.pc + 1 }

/-- R90, R91 and R92: CPL, SCF and CCF; Z is not written. -/
def Obligations.CplScfCcfResult : Prop :=
  encode .cpl = [0x2F] ∧ encode .scf = [0x37] ∧ encode .ccf = [0x3F] ∧
  ∀ s : State,
    exec .cpl s = .next { s with
      a := BitVec.ofNat 8 (255 - s.a.toNat),
      f := { z := s.f.z, n := true, h := true, c := s.f.c }, pc := s.pc + 1 } ∧
    exec .scf s = .next { s with f := { z := s.f.z, n := false, h := false, c := true }, pc := s.pc + 1 } ∧
    exec .ccf s = .next { s with f := { z := s.f.z, n := false, h := false, c := !s.f.c }, pc := s.pc + 1 }

/-- R93-R96: the rotates of A; Z, N and H are 0. -/
def Obligations.RotateResult : Prop :=
  encode .rlca = [0x07] ∧ encode .rrca = [0x0F] ∧ encode .rla = [0x17] ∧ encode .rra = [0x1F] ∧
  ∀ s : State,
    let a := s.a.toNat
    let res := fun (x : Nat) (c : Bool) => { s with
      a := BitVec.ofNat 8 x, f := { z := false, n := false, h := false, c := c }, pc := s.pc + 1 }
    exec .rlca s = .next (res (a * 2 % 256 + a / 128) (decide (a / 128 = 1))) ∧
    exec .rrca s = .next (res (a / 2 + a % 2 * 128) (decide (a % 2 = 1))) ∧
    exec .rla s = .next (res (a * 2 % 256 + s.f.c.toNat) (decide (a / 128 = 1))) ∧
    exec .rra s = .next (res (a / 2 + s.f.c.toNat * 128) (decide (a % 2 = 1)))

/-- R97: ADD HL,rr; Z is not written, and HL may be both operands. -/
def Obligations.AddHlResult : Prop :=
  (∀ rr : Pair, encode (.addHlRr rr) = [BitVec.ofNat 8 (0x09 + 16 * rr.code)]) ∧
  ∀ (s : State) (rr : Pair),
    let x := s.hl.toNat
    let y := (s.getPair rr).toNat
    exec (.addHlRr rr) s = .next { s with
      h := BitVec.ofNat 8 ((x + y) % 65536 / 256), l := BitVec.ofNat 8 ((x + y) % 256),
      f := { z := s.f.z, n := false, h := decide (x % 4096 + y % 4096 > 4095), c := decide (x + y > 65535) },
      pc := s.pc + 1 }

/-- R98 and R120: ADD SP,e8 and LD HL,SP+e8; H and C are the carries of the unsigned low byte. -/
def Obligations.SpDisplacementResult : Prop :=
  (∀ e, encode (.addSpE8 e) = [0xE8, e] ∧ encode (.ldHlSpE8 e) = [0xF8, e]) ∧
  ∀ (s : State) (e : Byte),
    let sum : Word := BitVec.ofInt 16 (s.sp.toNat + e.toInt)
    let flags : Flags := { z := false, n := false, h := decide (s.sp.toNat % 16 + e.toNat % 16 > 15),
                           c := decide (s.sp.toNat % 256 + e.toNat > 255) }
    exec (.addSpE8 e) s = .next { s with sp := sum, f := flags, pc := s.pc + 2 } ∧
    exec (.ldHlSpE8 e) s = .next { s with h := BitVec.ofNat 8 (sum.toNat / 256), l := BitVec.ofNat 8 (sum.toNat % 256),
                                          f := flags, pc := s.pc + 2 }

/-! ## 42_loads.md -/

/-- R100, R103, R105 and R119: the loads that touch no memory. -/
def Obligations.RegisterLoadResult : Prop :=
  (∀ dst src : R8, encode (.ldR8R8 dst src) = [BitVec.ofNat 8 (0x40 + 8 * dst.code + src.code)]) ∧
  (∀ (r : R8) (n : Byte), encode (.ldR8N8 r n) = [BitVec.ofNat 8 (0x06 + 8 * r.code), n]) ∧
  (∀ (rr : Pair) (n : Word), encode (.ldRrN16 rr n) =
    [BitVec.ofNat 8 (0x01 + 16 * rr.code), BitVec.ofNat 8 (n.toNat % 256), BitVec.ofNat 8 (n.toNat / 256)]) ∧
  encode .ldSpHl = [0xF9] ∧
  ∀ s : State,
    (∀ dst src, exec (.ldR8R8 dst src) s = .next { s.setR8 dst (s.getR8 src) with pc := s.pc + 1 }) ∧
    (∀ r n, exec (.ldR8N8 r n) s = .next { s.setR8 r n with pc := s.pc + 2 }) ∧
    (∀ rr n, exec (.ldRrN16 rr n) s = .next { s.setPair rr n with pc := s.pc + 3 }) ∧
    exec .ldSpHl s = .next { s with sp := s.hl, pc := s.pc + 1 }

/-- R101, R102 and R104: the loads and stores at HL. -/
def Obligations.LoadStoreAtHlResult : Prop :=
  (∀ r : R8, encode (.ldR8AtHl r) = [BitVec.ofNat 8 (0x46 + 8 * r.code)] ∧
    encode (.ldAtHlR8 r) = [BitVec.ofNat 8 (0x70 + r.code)]) ∧
  (∀ n, encode (.ldAtHlN8 n) = [0x36, n]) ∧
  (∀ s : State, s.permits s.hl = true →
    (∀ r, exec (.ldR8AtHl r) s = .next { s.setR8 r (s.readByte s.hl) with pc := s.pc + 1 }) ∧
    (∀ r, exec (.ldAtHlR8 r) s = .next { s.writeByte s.hl (s.getR8 r) with pc := s.pc + 1 }) ∧
    (∀ n, exec (.ldAtHlN8 n) s = .next { s.writeByte s.hl n with pc := s.pc + 2 })) ∧
  (∀ s : State, s.permits s.hl = false →
    (∀ r, exec (.ldR8AtHl r) s = .next { s with run := .faulted s.pc (.outOfBounds s.hl .read) }) ∧
    (∀ r, exec (.ldAtHlR8 r) s = .next { s with run := .faulted s.pc (.outOfBounds s.hl .write) }) ∧
    (∀ n, exec (.ldAtHlN8 n) s = .next { s with run := .faulted s.pc (.outOfBounds s.hl .write) }))

/-- R106 and R107: A through BC and DE. -/
def Obligations.LoadStoreThroughPairResult : Prop :=
  encode .ldAAtBc = [0x0A] ∧ encode .ldAAtDe = [0x1A] ∧ encode .ldAtBcA = [0x02] ∧ encode .ldAtDeA = [0x12] ∧
  (∀ s : State, s.permits s.bc = true →
    exec .ldAAtBc s = .next { s with a := s.readByte s.bc, pc := s.pc + 1 } ∧
    exec .ldAtBcA s = .next { s.writeByte s.bc s.a with pc := s.pc + 1 }) ∧
  (∀ s : State, s.permits s.de = true →
    exec .ldAAtDe s = .next { s with a := s.readByte s.de, pc := s.pc + 1 } ∧
    exec .ldAtDeA s = .next { s.writeByte s.de s.a with pc := s.pc + 1 }) ∧
  (∀ s : State, s.permits s.bc = false →
    exec .ldAAtBc s = .next { s with run := .faulted s.pc (.outOfBounds s.bc .read) } ∧
    exec .ldAtBcA s = .next { s with run := .faulted s.pc (.outOfBounds s.bc .write) }) ∧
  (∀ s : State, s.permits s.de = false →
    exec .ldAAtDe s = .next { s with run := .faulted s.pc (.outOfBounds s.de .read) } ∧
    exec .ldAtDeA s = .next { s with run := .faulted s.pc (.outOfBounds s.de .write) })

/-- R108-R111: the indexed loads and stores, the access at the old HL and the pair update in one step. -/
def Obligations.IndexedLoadStoreResult : Prop :=
  encode .ldAAtHlInc = [0x2A] ∧ encode .ldAAtHlDec = [0x3A] ∧ encode .ldAtHlIncA = [0x22] ∧ encode .ldAtHlDecA = [0x32] ∧
  (∀ s : State, s.permits s.hl = true →
    let up : Word := BitVec.ofNat 16 (s.hl.toNat + 1)
    let down : Word := BitVec.ofInt 16 (s.hl.toNat - 1)
    exec .ldAAtHlInc s = .next { s.setHl up with a := s.readByte s.hl, pc := s.pc + 1 } ∧
    exec .ldAAtHlDec s = .next { s.setHl down with a := s.readByte s.hl, pc := s.pc + 1 } ∧
    exec .ldAtHlIncA s = .next { (s.writeByte s.hl s.a).setHl up with pc := s.pc + 1 } ∧
    exec .ldAtHlDecA s = .next { (s.writeByte s.hl s.a).setHl down with pc := s.pc + 1 }) ∧
  (∀ s : State, s.permits s.hl = false →
    exec .ldAAtHlInc s = .next { s with run := .faulted s.pc (.outOfBounds s.hl .read) } ∧
    exec .ldAAtHlDec s = .next { s with run := .faulted s.pc (.outOfBounds s.hl .read) } ∧
    exec .ldAtHlIncA s = .next { s with run := .faulted s.pc (.outOfBounds s.hl .write) } ∧
    exec .ldAtHlDecA s = .next { s with run := .faulted s.pc (.outOfBounds s.hl .write) })

/-- R112-R115: the high-page loads and stores, at 0xFF00 + n and 0xFF00 + C. -/
def Obligations.HighPageResult : Prop :=
  (∀ n, encode (.ldhA8A n) = [0xE0, n] ∧ encode (.ldhAA8 n) = [0xF0, n]) ∧
  encode .ldAtCA = [0xE2] ∧ encode .ldAAtC = [0xF2] ∧
  (∀ (s : State) (n : Byte),
    let x : Word := BitVec.ofNat 16 (0xFF00 + n.toNat)
    (s.permits x = true →
      exec (.ldhA8A n) s = .next { s.writeByte x s.a with pc := s.pc + 2 } ∧
      exec (.ldhAA8 n) s = .next { s with a := s.readByte x, pc := s.pc + 2 }) ∧
    (s.permits x = false →
      exec (.ldhA8A n) s = .next { s with run := .faulted s.pc (.outOfBounds x .write) } ∧
      exec (.ldhAA8 n) s = .next { s with run := .faulted s.pc (.outOfBounds x .read) })) ∧
  (∀ s : State,
    let x : Word := BitVec.ofNat 16 (0xFF00 + s.c.toNat)
    (s.permits x = true →
      exec .ldAtCA s = .next { s.writeByte x s.a with pc := s.pc + 1 } ∧
      exec .ldAAtC s = .next { s with a := s.readByte x, pc := s.pc + 1 }) ∧
    (s.permits x = false →
      exec .ldAtCA s = .next { s with run := .faulted s.pc (.outOfBounds x .write) } ∧
      exec .ldAAtC s = .next { s with run := .faulted s.pc (.outOfBounds x .read) }))

/-- R116, R117 and R118: the loads and stores at an absolute address; SP is stored low byte first. -/
def Obligations.AbsoluteLoadStoreResult : Prop :=
  (∀ x : Word, encode (.ldA16A x) = [0xEA, BitVec.ofNat 8 (x.toNat % 256), BitVec.ofNat 8 (x.toNat / 256)] ∧
    encode (.ldAA16 x) = [0xFA, BitVec.ofNat 8 (x.toNat % 256), BitVec.ofNat 8 (x.toNat / 256)] ∧
    encode (.ldA16Sp x) = [0x08, BitVec.ofNat 8 (x.toNat % 256), BitVec.ofNat 8 (x.toNat / 256)]) ∧
  (∀ (s : State) (x : Word), s.permits x = true →
    exec (.ldA16A x) s = .next { s.writeByte x s.a with pc := s.pc + 3 } ∧
    exec (.ldAA16 x) s = .next { s with a := s.readByte x, pc := s.pc + 3 } ∧
    (s.permits (x + 1) = true →
      exec (.ldA16Sp x) s = .next
        { (s.writeByte x (BitVec.ofNat 8 (s.sp.toNat % 256))).writeByte (x + 1) (BitVec.ofNat 8 (s.sp.toNat / 256)) with
          pc := s.pc + 3 }) ∧
    (s.permits (x + 1) = false →
      exec (.ldA16Sp x) s = .next { s with run := .faulted s.pc (.outOfBounds (x + 1) .write) })) ∧
  (∀ (s : State) (x : Word), s.permits x = false →
    exec (.ldA16A x) s = .next { s with run := .faulted s.pc (.outOfBounds x .write) } ∧
    exec (.ldAA16 x) s = .next { s with run := .faulted s.pc (.outOfBounds x .read) } ∧
    exec (.ldA16Sp x) s = .next { s with run := .faulted s.pc (.outOfBounds x .write) })

/-- R121: PUSH writes the high byte at SP - 1, then the low byte at SP - 2. -/
def Obligations.PushResult : Prop :=
  (∀ rr : StackPair, encode (.pushRr rr) = [BitVec.ofNat 8 (0xC5 + 16 * rr.code)]) ∧
  ∀ s : State,
    let done := fun hi lo : Byte =>
      { (s.writeByte (s.sp - 1) hi).writeByte (s.sp - 2) lo with sp := s.sp - 2, pc := s.pc + 1 }
    (s.permits (s.sp - 1) = true → s.permits (s.sp - 2) = true →
      exec (.pushRr .bc) s = .next (done s.b s.c) ∧ exec (.pushRr .de) s = .next (done s.d s.e) ∧
      exec (.pushRr .hl) s = .next (done s.h s.l) ∧ exec (.pushRr .af) s = .next (done s.a s.f.toByte)) ∧
    (s.permits (s.sp - 1) = false → ∀ rr,
      exec (.pushRr rr) s = .next { s with run := .faulted s.pc (.outOfBounds (s.sp - 1) .write) }) ∧
    (s.permits (s.sp - 1) = true → s.permits (s.sp - 2) = false → ∀ rr,
      exec (.pushRr rr) s = .next { s with run := .faulted s.pc (.outOfBounds (s.sp - 2) .write) })

/-- R122: POP reads the low byte at SP, then the high byte at SP + 1; POP AF drops bits 3..0 of the low byte. -/
def Obligations.PopResult : Prop :=
  (∀ rr : StackPair, encode (.popRr rr) = [BitVec.ofNat 8 (0xC1 + 16 * rr.code)]) ∧
  ∀ s : State,
    let lo := s.readByte s.sp
    let hi := s.readByte (s.sp + 1)
    (s.permits s.sp = true → s.permits (s.sp + 1) = true →
      exec (.popRr .bc) s = .next { s with b := hi, c := lo, sp := s.sp + 2, pc := s.pc + 1 } ∧
      exec (.popRr .de) s = .next { s with d := hi, e := lo, sp := s.sp + 2, pc := s.pc + 1 } ∧
      exec (.popRr .hl) s = .next { s with h := hi, l := lo, sp := s.sp + 2, pc := s.pc + 1 } ∧
      exec (.popRr .af) s = .next { s with
        a := hi, f := { z := lo.getLsbD 7, n := lo.getLsbD 6, h := lo.getLsbD 5, c := lo.getLsbD 4 },
        sp := s.sp + 2, pc := s.pc + 1 }) ∧
    (s.permits s.sp = false → ∀ rr,
      exec (.popRr rr) s = .next { s with run := .faulted s.pc (.outOfBounds s.sp .read) }) ∧
    (s.permits s.sp = true → s.permits (s.sp + 1) = false → ∀ rr,
      exec (.popRr rr) s = .next { s with run := .faulted s.pc (.outOfBounds (s.sp + 1) .read) })

/-- N indexed loads in a row read N consecutive addresses, all distinct while N is at most 65536 (R108). -/
def Obligations.IndexedLoadsAreConsecutive : Prop :=
  (∀ (s : State) (trace : Nat → State), s.params.oobPolicy = .sentinel → trace 0 = s →
    (∀ k, exec .ldAAtHlInc (trace k) = .next (trace (k + 1))) →
    ∀ n : Nat, (trace n).hl = BitVec.ofNat 16 (s.hl.toNat + n) ∧
      (trace (n + 1)).a = s.readByte (BitVec.ofNat 16 (s.hl.toNat + n)) ∧ (trace n).f = s.f) ∧
  (∀ (x : Word) (j k : Nat), j < k → k < 65536 → BitVec.ofNat 16 (x.toNat + j) ≠ BitVec.ofNat 16 (x.toNat + k))

/-! ## 43_control.md -/

/-- R125 and R126: JR and JR cc go to `next + e`, in exact integers mod 65536; the conditions are those of R123. -/
def Obligations.RelativeJumpResult : Prop :=
  (∀ (cc : Cond) (e : Byte), encode (.jrE8 e) = [0x18, e] ∧
    encode (.jrCcE8 cc e) = [BitVec.ofNat 8 (0x20 + 8 * cc.code), e]) ∧
  ∀ (s : State) (e : Byte),
    let taken := { s with pc := BitVec.ofInt 16 (s.pc.toNat + 2 + e.toInt) }
    let fall := { s with pc := s.pc + 2 }
    exec (.jrE8 e) s = .next taken ∧
    exec (.jrCcE8 .nz e) s = .next (if s.f.z = false then taken else fall) ∧
    exec (.jrCcE8 .z e) s = .next (if s.f.z = true then taken else fall) ∧
    exec (.jrCcE8 .nc e) s = .next (if s.f.c = false then taken else fall) ∧
    exec (.jrCcE8 .c e) s = .next (if s.f.c = true then taken else fall)

/-- R127, R128 and R129: JP, JP cc and JP HL. -/
def Obligations.AbsoluteJumpResult : Prop :=
  (∀ (cc : Cond) (x : Word),
    encode (.jpA16 x) = [0xC3, BitVec.ofNat 8 (x.toNat % 256), BitVec.ofNat 8 (x.toNat / 256)] ∧
    encode (.jpCcA16 cc x) =
      [BitVec.ofNat 8 (0xC2 + 8 * cc.code), BitVec.ofNat 8 (x.toNat % 256), BitVec.ofNat 8 (x.toNat / 256)]) ∧
  encode .jpHl = [0xE9] ∧
  ∀ (s : State) (x : Word),
    let taken := { s with pc := x }
    let fall := { s with pc := s.pc + 3 }
    exec (.jpA16 x) s = .next taken ∧
    exec (.jpCcA16 .nz x) s = .next (if s.f.z = false then taken else fall) ∧
    exec (.jpCcA16 .z x) s = .next (if s.f.z = true then taken else fall) ∧
    exec (.jpCcA16 .nc x) s = .next (if s.f.c = false then taken else fall) ∧
    exec (.jpCcA16 .c x) s = .next (if s.f.c = true then taken else fall) ∧
    exec .jpHl s = .next { s with pc := s.hl }

/-- R130 and R131: CALL and CALL cc push `pc + 3`, high byte first, and jump; a CALL cc not taken touches no stack. -/
def Obligations.CallResult : Prop :=
  (∀ (cc : Cond) (x : Word),
    encode (.callA16 x) = [0xCD, BitVec.ofNat 8 (x.toNat % 256), BitVec.ofNat 8 (x.toNat / 256)] ∧
    encode (.callCcA16 cc x) =
      [BitVec.ofNat 8 (0xC4 + 8 * cc.code), BitVec.ofNat 8 (x.toNat % 256), BitVec.ofNat 8 (x.toNat / 256)]) ∧
  ∀ (s : State) (x : Word),
    let next : Word := s.pc + 3
    let taken : State :=
      if s.permits (s.sp - 1) = false then { s with run := .faulted s.pc (.outOfBounds (s.sp - 1) .write) }
      else if s.permits (s.sp - 2) = false then { s with run := .faulted s.pc (.outOfBounds (s.sp - 2) .write) }
      else { (s.writeByte (s.sp - 1) (BitVec.ofNat 8 (next.toNat / 256))).writeByte (s.sp - 2)
              (BitVec.ofNat 8 (next.toNat % 256)) with sp := s.sp - 2, pc := x }
    let fall : State := { s with pc := s.pc + 3 }
    exec (.callA16 x) s = .next taken ∧
    exec (.callCcA16 .nz x) s = .next (if s.f.z = false then taken else fall) ∧
    exec (.callCcA16 .z x) s = .next (if s.f.z = true then taken else fall) ∧
    exec (.callCcA16 .nc x) s = .next (if s.f.c = false then taken else fall) ∧
    exec (.callCcA16 .c x) s = .next (if s.f.c = true then taken else fall)

/-- R132 and R133: RET and RET cc pop the pc, low byte first; a RET cc not taken touches no stack. -/
def Obligations.ReturnResult : Prop :=
  (∀ cc : Cond, encode .ret = [0xC9] ∧ encode (.retCc cc) = [BitVec.ofNat 8 (0xC0 + 8 * cc.code)]) ∧
  ∀ s : State,
    let taken : State :=
      if s.permits s.sp = false then { s with run := .faulted s.pc (.outOfBounds s.sp .read) }
      else if s.permits (s.sp + 1) = false then { s with run := .faulted s.pc (.outOfBounds (s.sp + 1) .read) }
      else { s with sp := s.sp + 2
                    pc := BitVec.ofNat 16 ((s.readByte (s.sp + 1)).toNat * 256 + (s.readByte s.sp).toNat) }
    let fall : State := { s with pc := s.pc + 1 }
    exec .ret s = .next taken ∧
    exec (.retCc .nz) s = .next (if s.f.z = false then taken else fall) ∧
    exec (.retCc .z) s = .next (if s.f.z = true then taken else fall) ∧
    exec (.retCc .nc) s = .next (if s.f.c = false then taken else fall) ∧
    exec (.retCc .c) s = .next (if s.f.c = true then taken else fall)

/-! ## 44_system.md -/

/-- R134-R137: NOP and DI advance pc, DI clears IME; HALT and STOP enter Halted with pc past the instruction, STOP
whatever its second byte. -/
def Obligations.SystemResult : Prop :=
  encode .nop = [0x00] ∧ encode .halt = [0x76] ∧ (∀ n, encode (.stop n) = [0x10, n]) ∧ encode .di = [0xF3] ∧
  ∀ s : State,
    exec .nop s = .next { s with pc := s.pc + 1 } ∧
    exec .halt s = .next { s with pc := s.pc + 1, run := .halted } ∧
    (∀ n, exec (.stop n) s = .next { s with pc := s.pc + 2, run := .halted }) ∧
    exec .di s = .next { s with ime := false, pc := s.pc + 1 }

/-- R138: each of the 22 refused opcodes raises DecodeError(pc, op); nothing but the run state is written. That they are
instructions is log entry 11, that the unassigned ones carry their byte log entry 12, that each is one byte long log entry
26. -/
def Obligations.RefusedResult : Prop :=
  ∀ (i : Instr) (op : Byte),
    (i, op) ∈ ([(.refusedCbPrefix, 0xCB), (.refusedRst00H, 0xC7), (.refusedRst08H, 0xCF), (.refusedRst10H, 0xD7),
      (.refusedRst18H, 0xDF), (.refusedRst20H, 0xE7), (.refusedRst28H, 0xEF), (.refusedRst30H, 0xF7),
      (.refusedRst38H, 0xFF), (.refusedReti, 0xD9), (.refusedEi, 0xFB), (.refusedUnassigned 0xD3, 0xD3),
      (.refusedUnassigned 0xDB, 0xDB), (.refusedUnassigned 0xDD, 0xDD), (.refusedUnassigned 0xE3, 0xE3),
      (.refusedUnassigned 0xE4, 0xE4), (.refusedUnassigned 0xEB, 0xEB), (.refusedUnassigned 0xEC, 0xEC),
      (.refusedUnassigned 0xED, 0xED), (.refusedUnassigned 0xF4, 0xF4), (.refusedUnassigned 0xFC, 0xFC),
      (.refusedUnassigned 0xFD, 0xFD)] : List (Instr × Byte)) →
    encode i = [op] ∧ i.wf = true ∧
    ∀ s : State, exec i s = .next { s with run := .faulted s.pc (.decodeError op) }

/-! ## The whole machine -/

/-- Every step, and every action of the host (a later load among them, log entry 19), keeps storage in canonical form.
What an unlisted byte reads as is the model's choice (log entries 4 and 5). -/
def Obligations.CanonicalMemoryIsKept : Prop :=
  (∀ s t : State, s.inv → step s = .next t → t.inv) ∧
  (∀ (s : State) (acts : List HostAction), s.inv → (s.performAll acts).inv)

/-- The reset state's storage is in canonical form; that it lists nothing is the model's choice (log entries 4 and 5). -/
def Obligations.ResetMemoryIsCanonical : Prop := State.reset.inv

/-- No step writes ROM or the parameters (R34), and each leaves `JoypadState` as the host made it before the step (R152).
That State holds the host's coming draws in `inputs`, of which a step takes the first, is the model's choice (log entry 2,
DESIGN CHOICE), and so is that it holds the parameters (log entry 1, DESIGN CHOICE). -/
def Obligations.RomAndInputsNeverWritten : Prop :=
  ∀ s t : State, step s = .next t →
    (∀ a : Nat, a < 0x8000 → Memory.read t.mem a = Memory.read s.mem a) ∧ t.params = s.params ∧
    t.joypad = s.inputs.headD s.joypad ∧ t.inputs = s.inputs.tail

/-- An instruction changes only the general registers its row of R18 names. -/
def Obligations.RegisterFrame : Prop :=
  ∀ (i : Instr) (s t : State) (r : R8), exec i s = .next t → i.writesR8 r = false → t.getR8 r = s.getR8 r

/-- An instruction changes only the flags its row of R21 names. -/
def Obligations.FlagFrame : Prop :=
  ∀ (i : Instr) (s t : State), exec i s = .next t →
    (i.writesFlags.z = false → t.f.z = s.f.z) ∧ (i.writesFlags.n = false → t.f.n = s.f.n) ∧
    (i.writesFlags.h = false → t.f.h = s.f.h) ∧ (i.writesFlags.c = false → t.f.c = s.f.c)

/-- Only the instructions of R22 write SP; only DI writes IME, to 0 (R24); only HALT, STOP and the errors change the run
state (R25); no instruction writes the parameters (log entry 1), `JoypadState` (R152) or the host's coming inputs (log entry
2). -/
def Obligations.StatusFrame : Prop :=
  ∀ (i : Instr) (s t : State), exec i s = .next t →
    (i.writesSp = false → t.sp = s.sp) ∧
    (t.ime = s.ime ∨ (i = .di ∧ t.ime = false)) ∧
    (t.run = s.run ∨ (t.run = .halted ∧ (i = .halt ∨ ∃ n, i = .stop n)) ∨
      (∃ op, i.refusedOp = some op ∧ t.run = .faulted s.pc (.decodeError op)) ∨
      (∃ x, s.firstDenied i = some x ∧ t.run = .faulted s.pc (.outOfBounds x.addr x.kind))) ∧
    t.params = s.params ∧ t.joypad = s.joypad ∧ t.inputs = s.inputs

/-- Every byte, the joypad register's too, reads as before outside the places the instruction stores to; the addresses are
those the meaning computes. -/
def Obligations.MemoryFrame : Prop :=
  ∀ (i : Instr) (s t : State), exec i s = .next t →
    (∀ a : Word, (∀ x ∈ s.storedAt i, samePlace x a = false) → t.readByte a = s.readByte a) ∧
    ((∀ x ∈ s.storedAt i, x ≠ 0xFF00) → t.p15 = s.p15 ∧ t.p14 = s.p14) ∧
    (s.storedAt i = [] → t.mem = s.mem)

/-- R23: an instruction that does not branch, whose opcode is not refused and whose accesses go through leaves pc at the
following address, its length past the opcode. -/
def Obligations.PcAdvancesByLength : Prop :=
  ∀ (i : Instr) (s t : State), exec i s = .next t → i.isControl = false → i.refusedOp = none →
    s.firstDenied i = none → t.pc = s.pc + BitVec.ofNat 16 i.length

/-- Errors are precise (R144): a step that ends Faulted changed nothing of the CPU but the run state, which holds the pc
of the faulting instruction. Under the decided `Sentinel` policy OutOfBoundsAccess is never raised (R141). -/
def Obligations.ErrorsArePrecise : Prop :=
  ∀ (s t : State) (pc : Word) (info : FaultInfo), step s = .next t → t.run = .faulted pc info →
    pc = s.pc ∧ t = { s.drawInput with run := .faulted s.pc info } ∧
    (s.params.oobPolicy = .sentinel → ∃ op, info = .decodeError op)

/-- No rule reads IME (R24): two states that differ only in IME step alike, up to IME (a terminal CPU's step is a stop of the
model: log entry 9). -/
def Obligations.ImeIsNeverRead : Prop :=
  ∀ (s : State) (b : Bool),
    (∀ t : State, step s = .next t → ∃ b', step { s with ime := b } = .next { t with ime := b' }) ∧
    (∀ r, step s = .fault r → step { s with ime := b } = .fault r)

/-- A CALL whose stack slot is storage, then a RET: pc is the address after the CALL, SP as before (R124, R130, R132). -/
def Obligations.CallThenReturn : Prop :=
  ∀ (s t u : State) (x : Word),
    ((0x8000 ≤ (s.sp - 1).toNat ∧ (s.sp - 1).toNat ≤ 0x9FFF) ∨ (0xC000 ≤ (s.sp - 1).toNat ∧ (s.sp - 1).toNat ≤ 0xDFFF) ∨
      (0xFF80 ≤ (s.sp - 1).toNat ∧ (s.sp - 1).toNat ≤ 0xFFFE)) →
    ((0x8000 ≤ (s.sp - 2).toNat ∧ (s.sp - 2).toNat ≤ 0x9FFF) ∨ (0xC000 ≤ (s.sp - 2).toNat ∧ (s.sp - 2).toNat ≤ 0xDFFF) ∨
      (0xFF80 ≤ (s.sp - 2).toNat ∧ (s.sp - 2).toNat ≤ 0xFFFE)) →
    exec (.callA16 x) s = .next t → exec .ret t = .next u →
    t.pc = x ∧ u.pc = s.pc + 3 ∧ u.sp = s.sp ∧ u.run = s.run

/-- R156 and R157, in every well-formed configuration (R142): the renderer reports no error, and the framebuffer's cell in
row y and column x combines bit 7 - x mod 8 of the two bytes of the row of the tile the map names. -/
def Obligations.RenderGivesFramebuffer : Prop :=
  ∀ s : State, s.params.wf → ∃ fb : Framebuffer, s.render = .ok fb ∧ fb.length = 8 * s.params.mapH ∧
    ∀ y : Nat, y < 8 * s.params.mapH → ∃ row : List (BitVec 2), fb[y]? = some row ∧ row.length = 8 * s.params.mapW ∧
      ∀ x : Nat, x < 8 * s.params.mapW →
        let t := Memory.read s.mem (s.params.mapBase + y / 8 * s.params.mapW + x / 8)
        let base := s.params.tileBase + 16 * t.toNat + 2 * (y % 8)
        let bit := 7 - x % 8
        row[x]? = some (BitVec.ofNat 2 (2 * ((Memory.read s.mem (base + 1)).getLsbD bit).toNat +
          ((Memory.read s.mem base).getLsbD bit).toNat))
end

