-- ==== Sys2Proof/Laws/Memory.lean ====
section
/-! SUPPORT. The laws of storage: a read after a write, and that every operation keeps the canonical form. -/

namespace Sys2Proof.Machine

variable {m : Memory}

theorem Memory.read_erase (m : Memory) (a b : Nat) :
    Memory.read (Memory.erase m a) b = if b = a then Memory.unlisted a else Memory.read m b := by
  induction m with
  | nil => by_cases h : b = a <;> simp [Memory.erase, Memory.read, h]
  | cons x m ih =>
    obtain ⟨k, v⟩ := x
    unfold Memory.erase at ih ⊢
    by_cases hk : k = a
    · subst hk
      by_cases hb : b = k
      · simpa [hb] using ih
      · simp [ih, hb, Memory.read, Ne.symm hb]
    · by_cases hb : k = b
      · subst hb; simp [hk, Memory.read]
      · simp [hk, hb, Memory.read, ih]

theorem Memory.read_insert (h : ∀ x ∈ m, x.1 ≠ a) (v : Byte) (b : Nat) :
    Memory.read (Memory.insert m a v) b = if b = a then v else Memory.read m b := by
  induction m with
  | nil => by_cases hb : a = b <;> simp [Memory.insert, Memory.read, hb, eq_comm]
  | cons x m ih =>
    obtain ⟨k, w⟩ := x
    have hk : k ≠ a := h (k, w) List.mem_cons_self
    have ih := ih fun x hx => h x (List.mem_cons_of_mem _ hx)
    unfold Memory.insert
    split
    · by_cases hb : a = b <;> simp [Memory.read, hb, eq_comm]
    · by_cases hb : k = b
      · subst hb; simp [Memory.read, hk]
      · simp [Memory.read, hb, ih]

theorem Memory.ne_of_mem_erase (m : Memory) (a : Nat) : ∀ x ∈ Memory.erase m a, x.1 ≠ a := by
  intro x hx
  simpa using (List.mem_filter.mp hx).2

/-- A read after a write: the byte written where it was written, every other cell as before. -/
theorem Memory.read_write (m : Memory) (a b : Nat) (v : Byte) :
    Memory.read (Memory.write m a v) b = if b = a then v else Memory.read m b := by
  unfold Memory.write
  split
  · next h => rw [Memory.read_erase, h]
  · rw [Memory.read_insert (Memory.ne_of_mem_erase m a), Memory.read_erase]
    by_cases hb : b = a <;> simp [hb]

@[simp] theorem Memory.read_write_self (m : Memory) (a : Nat) (v : Byte) :
    Memory.read (Memory.write m a v) a = v := by
  simp [Memory.read_write]

theorem Memory.read_write_ne (m : Memory) {a b : Nat} (v : Byte) (h : b ≠ a) :
    Memory.read (Memory.write m a v) b = Memory.read m b := by
  simp [Memory.read_write, h]

theorem Memory.erase_wf (h : Memory.wf m) (a : Nat) : Memory.wf (Memory.erase m a) :=
  ⟨h.1.filter _, fun x hx => h.2 x (List.mem_filter.mp hx).1⟩

theorem Memory.mem_insert {x : Host.Cell} : x ∈ Memory.insert m a v → x = (a, v) ∨ x ∈ m := by
  induction m with
  | nil => simp [Memory.insert]
  | cons y m ih =>
    obtain ⟨k, w⟩ := y
    unfold Memory.insert
    split
    · simp
    · intro hx
      rcases List.mem_cons.mp hx with hx | hx
      · exact .inr (hx ▸ List.mem_cons_self)
      · exact (ih hx).imp_right (List.mem_cons_of_mem _)

theorem Memory.insert_pairwise (h : m.Pairwise fun x y => x.1 < y.1) (hne : ∀ x ∈ m, x.1 ≠ a) (v : Byte) :
    (Memory.insert m a v).Pairwise fun x y => x.1 < y.1 := by
  induction m with
  | nil => simp [Memory.insert]
  | cons y m ih =>
    obtain ⟨k, w⟩ := y
    have hm := List.pairwise_cons.mp h
    have hk : k ≠ a := hne (k, w) List.mem_cons_self
    unfold Memory.insert
    split
    · next hlt =>
      refine List.pairwise_cons.mpr ⟨fun x hx => ?_, h⟩
      rcases List.mem_cons.mp hx with rfl | hx
      · exact hlt
      · exact Nat.lt_trans hlt (hm.1 x hx)
    · next hlt =>
      refine List.pairwise_cons.mpr ⟨fun x hx => ?_, ih hm.2 fun x hx => hne x (List.mem_cons_of_mem _ hx)⟩
      rcases Memory.mem_insert hx with rfl | hx
      · show k < a
        omega
      · exact hm.1 x hx

/-- Storing to a storage cell keeps the canonical form. -/
theorem Memory.write_wf (h : Memory.wf m) {a : Nat} (ha : isStored a = true) (v : Byte) :
    Memory.wf (Memory.write m a v) := by
  unfold Memory.write
  split
  · exact Memory.erase_wf h a
  · next hv =>
    refine ⟨Memory.insert_pairwise (Memory.erase_wf h a).1 (Memory.ne_of_mem_erase m a) v, fun x hx => ?_⟩
    rcases Memory.mem_insert hx with rfl | hx
    · exact ⟨ha, hv⟩
    · exact (Memory.erase_wf h a).2 x hx

/-- Storage built cell by cell is in canonical form. -/
theorem Memory.build_wf (g : Nat → Byte) : Memory.wf (Memory.build g) := by
  have hsome : ∀ a x, (if isStored a = true ∧ g a ≠ Memory.unlisted a then some (a, g a) else none) = some x →
      x.1 = a ∧ isStored a = true ∧ g a ≠ Memory.unlisted a ∧ x.2 = g a := by
    intro a x h
    split at h
    · next hc => cases h; exact ⟨rfl, hc.1, hc.2, rfl⟩
    · cases h
  unfold Memory.build
  constructor
  · refine List.Pairwise.filterMap _ (fun a b hab x hx y hy => ?_) List.pairwise_lt_range
    rw [(hsome a x hx).1, (hsome b y hy).1]
    exact hab
  · intro x hx
    obtain ⟨a, -, ha⟩ := List.mem_filterMap.mp hx
    obtain ⟨h1, h2, h3, h4⟩ := hsome a x ha
    rw [h1, h4]
    exact ⟨h2, h3⟩

theorem Memory.read_filterMap (g : Nat → Byte) (l : List Nat) (a : Nat) :
    Memory.read (l.filterMap fun a => if isStored a = true ∧ g a ≠ Memory.unlisted a then some (a, g a) else none) a =
      if a ∈ l ∧ isStored a = true then g a else Memory.unlisted a := by
  induction l with
  | nil => simp [Memory.read]
  | cons k l ih =>
    rw [List.filterMap_cons]
    by_cases hk : isStored k = true ∧ g k ≠ Memory.unlisted k
    · simp only [hk, and_self, ne_eq, not_false_eq_true, if_true, Memory.read, List.mem_cons]
      by_cases hka : k = a
      · subst hka; simp [hk.1]
      · simp [hka, ih, Ne.symm hka]
    · simp only [hk, if_false, ih, List.mem_cons]
      by_cases hka : a = k
      · subst hka
        by_cases hs : isStored a = true
        · have : g a = Memory.unlisted a := by
            by_contra hne; exact hk ⟨hs, hne⟩
          by_cases hl : a ∈ l <;> simp [hs, hl, this]
        · simp [hs]
      · simp [hka]

theorem isStored_lt (h : isStored a = true) : a < 0x10000 := by
  unfold isStored regionAt at h
  by_contra hc
  simp only [show ¬a < 0x8000 by omega, show ¬a < 0xA000 by omega, show ¬a < 0xC000 by omega, show ¬a < 0xE000 by omega,
    show ¬a < 0xFE00 by omega, show ¬a < 0xFEA0 by omega, show ¬a < 0xFF00 by omega, show ¬a < 0xFF01 by omega,
    show ¬a < 0xFF80 by omega, show ¬a < 0xFFFF by omega, if_false, Region.stored] at h
  cases h

/-- What built storage reads: the given byte in every storage cell. -/
theorem Memory.read_build (g : Nat → Byte) {a : Nat} (h : isStored a = true) : Memory.read (Memory.build g) a = g a := by
  unfold Memory.build
  rw [Memory.read_filterMap]
  simp [h, isStored_lt h]

theorem Memory.build_unlisted (g : Nat → Byte) (h : ∀ a, g a = Memory.unlisted a) : Memory.build g = [] := by
  unfold Memory.build
  simp [h]

end Sys2Proof.Machine
end

