-- ==== Sys2Proof/Laws/State.lean ====
section
/-! SUPPORT. One lemma per field per update: what each named update leaves as it was, and what it writes. -/

namespace Sys2Proof.Machine

variable (s : State)

/-! ## setA -/

@[simp] theorem State.setA_a (v : Byte) : (s.setA v).a = v := rfl
@[simp] theorem State.setA_b (v : Byte) : (s.setA v).b = s.b := rfl
@[simp] theorem State.setA_c (v : Byte) : (s.setA v).c = s.c := rfl
@[simp] theorem State.setA_d (v : Byte) : (s.setA v).d = s.d := rfl
@[simp] theorem State.setA_e (v : Byte) : (s.setA v).e = s.e := rfl
@[simp] theorem State.setA_h (v : Byte) : (s.setA v).h = s.h := rfl
@[simp] theorem State.setA_l (v : Byte) : (s.setA v).l = s.l := rfl
@[simp] theorem State.setA_f (v : Byte) : (s.setA v).f = s.f := rfl
@[simp] theorem State.setA_sp (v : Byte) : (s.setA v).sp = s.sp := rfl
@[simp] theorem State.setA_pc (v : Byte) : (s.setA v).pc = s.pc := rfl
@[simp] theorem State.setA_ime (v : Byte) : (s.setA v).ime = s.ime := rfl
@[simp] theorem State.setA_run (v : Byte) : (s.setA v).run = s.run := rfl
@[simp] theorem State.setA_p15 (v : Byte) : (s.setA v).p15 = s.p15 := rfl
@[simp] theorem State.setA_p14 (v : Byte) : (s.setA v).p14 = s.p14 := rfl
@[simp] theorem State.setA_mem (v : Byte) : (s.setA v).mem = s.mem := rfl
@[simp] theorem State.setA_joypad (v : Byte) : (s.setA v).joypad = s.joypad := rfl
@[simp] theorem State.setA_inputs (v : Byte) : (s.setA v).inputs = s.inputs := rfl
@[simp] theorem State.setA_params (v : Byte) : (s.setA v).params = s.params := rfl

/-! ## setF -/

@[simp] theorem State.setF_a (v : Flags) : (s.setF v).a = s.a := rfl
@[simp] theorem State.setF_b (v : Flags) : (s.setF v).b = s.b := rfl
@[simp] theorem State.setF_c (v : Flags) : (s.setF v).c = s.c := rfl
@[simp] theorem State.setF_d (v : Flags) : (s.setF v).d = s.d := rfl
@[simp] theorem State.setF_e (v : Flags) : (s.setF v).e = s.e := rfl
@[simp] theorem State.setF_h (v : Flags) : (s.setF v).h = s.h := rfl
@[simp] theorem State.setF_l (v : Flags) : (s.setF v).l = s.l := rfl
@[simp] theorem State.setF_f (v : Flags) : (s.setF v).f = v := rfl
@[simp] theorem State.setF_sp (v : Flags) : (s.setF v).sp = s.sp := rfl
@[simp] theorem State.setF_pc (v : Flags) : (s.setF v).pc = s.pc := rfl
@[simp] theorem State.setF_ime (v : Flags) : (s.setF v).ime = s.ime := rfl
@[simp] theorem State.setF_run (v : Flags) : (s.setF v).run = s.run := rfl
@[simp] theorem State.setF_p15 (v : Flags) : (s.setF v).p15 = s.p15 := rfl
@[simp] theorem State.setF_p14 (v : Flags) : (s.setF v).p14 = s.p14 := rfl
@[simp] theorem State.setF_mem (v : Flags) : (s.setF v).mem = s.mem := rfl
@[simp] theorem State.setF_joypad (v : Flags) : (s.setF v).joypad = s.joypad := rfl
@[simp] theorem State.setF_inputs (v : Flags) : (s.setF v).inputs = s.inputs := rfl
@[simp] theorem State.setF_params (v : Flags) : (s.setF v).params = s.params := rfl

/-! ## setSp -/

@[simp] theorem State.setSp_a (v : Word) : (s.setSp v).a = s.a := rfl
@[simp] theorem State.setSp_b (v : Word) : (s.setSp v).b = s.b := rfl
@[simp] theorem State.setSp_c (v : Word) : (s.setSp v).c = s.c := rfl
@[simp] theorem State.setSp_d (v : Word) : (s.setSp v).d = s.d := rfl
@[simp] theorem State.setSp_e (v : Word) : (s.setSp v).e = s.e := rfl
@[simp] theorem State.setSp_h (v : Word) : (s.setSp v).h = s.h := rfl
@[simp] theorem State.setSp_l (v : Word) : (s.setSp v).l = s.l := rfl
@[simp] theorem State.setSp_f (v : Word) : (s.setSp v).f = s.f := rfl
@[simp] theorem State.setSp_sp (v : Word) : (s.setSp v).sp = v := rfl
@[simp] theorem State.setSp_pc (v : Word) : (s.setSp v).pc = s.pc := rfl
@[simp] theorem State.setSp_ime (v : Word) : (s.setSp v).ime = s.ime := rfl
@[simp] theorem State.setSp_run (v : Word) : (s.setSp v).run = s.run := rfl
@[simp] theorem State.setSp_p15 (v : Word) : (s.setSp v).p15 = s.p15 := rfl
@[simp] theorem State.setSp_p14 (v : Word) : (s.setSp v).p14 = s.p14 := rfl
@[simp] theorem State.setSp_mem (v : Word) : (s.setSp v).mem = s.mem := rfl
@[simp] theorem State.setSp_joypad (v : Word) : (s.setSp v).joypad = s.joypad := rfl
@[simp] theorem State.setSp_inputs (v : Word) : (s.setSp v).inputs = s.inputs := rfl
@[simp] theorem State.setSp_params (v : Word) : (s.setSp v).params = s.params := rfl

/-! ## setPc -/

@[simp] theorem State.setPc_a (v : Word) : (s.setPc v).a = s.a := rfl
@[simp] theorem State.setPc_b (v : Word) : (s.setPc v).b = s.b := rfl
@[simp] theorem State.setPc_c (v : Word) : (s.setPc v).c = s.c := rfl
@[simp] theorem State.setPc_d (v : Word) : (s.setPc v).d = s.d := rfl
@[simp] theorem State.setPc_e (v : Word) : (s.setPc v).e = s.e := rfl
@[simp] theorem State.setPc_h (v : Word) : (s.setPc v).h = s.h := rfl
@[simp] theorem State.setPc_l (v : Word) : (s.setPc v).l = s.l := rfl
@[simp] theorem State.setPc_f (v : Word) : (s.setPc v).f = s.f := rfl
@[simp] theorem State.setPc_sp (v : Word) : (s.setPc v).sp = s.sp := rfl
@[simp] theorem State.setPc_pc (v : Word) : (s.setPc v).pc = v := rfl
@[simp] theorem State.setPc_ime (v : Word) : (s.setPc v).ime = s.ime := rfl
@[simp] theorem State.setPc_run (v : Word) : (s.setPc v).run = s.run := rfl
@[simp] theorem State.setPc_p15 (v : Word) : (s.setPc v).p15 = s.p15 := rfl
@[simp] theorem State.setPc_p14 (v : Word) : (s.setPc v).p14 = s.p14 := rfl
@[simp] theorem State.setPc_mem (v : Word) : (s.setPc v).mem = s.mem := rfl
@[simp] theorem State.setPc_joypad (v : Word) : (s.setPc v).joypad = s.joypad := rfl
@[simp] theorem State.setPc_inputs (v : Word) : (s.setPc v).inputs = s.inputs := rfl
@[simp] theorem State.setPc_params (v : Word) : (s.setPc v).params = s.params := rfl

/-! ## setRun -/

@[simp] theorem State.setRun_a (v : RunState) : (s.setRun v).a = s.a := rfl
@[simp] theorem State.setRun_b (v : RunState) : (s.setRun v).b = s.b := rfl
@[simp] theorem State.setRun_c (v : RunState) : (s.setRun v).c = s.c := rfl
@[simp] theorem State.setRun_d (v : RunState) : (s.setRun v).d = s.d := rfl
@[simp] theorem State.setRun_e (v : RunState) : (s.setRun v).e = s.e := rfl
@[simp] theorem State.setRun_h (v : RunState) : (s.setRun v).h = s.h := rfl
@[simp] theorem State.setRun_l (v : RunState) : (s.setRun v).l = s.l := rfl
@[simp] theorem State.setRun_f (v : RunState) : (s.setRun v).f = s.f := rfl
@[simp] theorem State.setRun_sp (v : RunState) : (s.setRun v).sp = s.sp := rfl
@[simp] theorem State.setRun_pc (v : RunState) : (s.setRun v).pc = s.pc := rfl
@[simp] theorem State.setRun_ime (v : RunState) : (s.setRun v).ime = s.ime := rfl
@[simp] theorem State.setRun_run (v : RunState) : (s.setRun v).run = v := rfl
@[simp] theorem State.setRun_p15 (v : RunState) : (s.setRun v).p15 = s.p15 := rfl
@[simp] theorem State.setRun_p14 (v : RunState) : (s.setRun v).p14 = s.p14 := rfl
@[simp] theorem State.setRun_mem (v : RunState) : (s.setRun v).mem = s.mem := rfl
@[simp] theorem State.setRun_joypad (v : RunState) : (s.setRun v).joypad = s.joypad := rfl
@[simp] theorem State.setRun_inputs (v : RunState) : (s.setRun v).inputs = s.inputs := rfl
@[simp] theorem State.setRun_params (v : RunState) : (s.setRun v).params = s.params := rfl

/-! ## setIme -/

@[simp] theorem State.setIme_a (v : Bool) : (s.setIme v).a = s.a := rfl
@[simp] theorem State.setIme_b (v : Bool) : (s.setIme v).b = s.b := rfl
@[simp] theorem State.setIme_c (v : Bool) : (s.setIme v).c = s.c := rfl
@[simp] theorem State.setIme_d (v : Bool) : (s.setIme v).d = s.d := rfl
@[simp] theorem State.setIme_e (v : Bool) : (s.setIme v).e = s.e := rfl
@[simp] theorem State.setIme_h (v : Bool) : (s.setIme v).h = s.h := rfl
@[simp] theorem State.setIme_l (v : Bool) : (s.setIme v).l = s.l := rfl
@[simp] theorem State.setIme_f (v : Bool) : (s.setIme v).f = s.f := rfl
@[simp] theorem State.setIme_sp (v : Bool) : (s.setIme v).sp = s.sp := rfl
@[simp] theorem State.setIme_pc (v : Bool) : (s.setIme v).pc = s.pc := rfl
@[simp] theorem State.setIme_ime (v : Bool) : (s.setIme v).ime = v := rfl
@[simp] theorem State.setIme_run (v : Bool) : (s.setIme v).run = s.run := rfl
@[simp] theorem State.setIme_p15 (v : Bool) : (s.setIme v).p15 = s.p15 := rfl
@[simp] theorem State.setIme_p14 (v : Bool) : (s.setIme v).p14 = s.p14 := rfl
@[simp] theorem State.setIme_mem (v : Bool) : (s.setIme v).mem = s.mem := rfl
@[simp] theorem State.setIme_joypad (v : Bool) : (s.setIme v).joypad = s.joypad := rfl
@[simp] theorem State.setIme_inputs (v : Bool) : (s.setIme v).inputs = s.inputs := rfl
@[simp] theorem State.setIme_params (v : Bool) : (s.setIme v).params = s.params := rfl

/-! ## advance -/

@[simp] theorem State.advance_a (n : Word) : (s.advance n).a = s.a := rfl
@[simp] theorem State.advance_b (n : Word) : (s.advance n).b = s.b := rfl
@[simp] theorem State.advance_c (n : Word) : (s.advance n).c = s.c := rfl
@[simp] theorem State.advance_d (n : Word) : (s.advance n).d = s.d := rfl
@[simp] theorem State.advance_e (n : Word) : (s.advance n).e = s.e := rfl
@[simp] theorem State.advance_h (n : Word) : (s.advance n).h = s.h := rfl
@[simp] theorem State.advance_l (n : Word) : (s.advance n).l = s.l := rfl
@[simp] theorem State.advance_f (n : Word) : (s.advance n).f = s.f := rfl
@[simp] theorem State.advance_sp (n : Word) : (s.advance n).sp = s.sp := rfl
@[simp] theorem State.advance_pc (n : Word) : (s.advance n).pc = s.pc + n := rfl
@[simp] theorem State.advance_ime (n : Word) : (s.advance n).ime = s.ime := rfl
@[simp] theorem State.advance_run (n : Word) : (s.advance n).run = s.run := rfl
@[simp] theorem State.advance_p15 (n : Word) : (s.advance n).p15 = s.p15 := rfl
@[simp] theorem State.advance_p14 (n : Word) : (s.advance n).p14 = s.p14 := rfl
@[simp] theorem State.advance_mem (n : Word) : (s.advance n).mem = s.mem := rfl
@[simp] theorem State.advance_joypad (n : Word) : (s.advance n).joypad = s.joypad := rfl
@[simp] theorem State.advance_inputs (n : Word) : (s.advance n).inputs = s.inputs := rfl
@[simp] theorem State.advance_params (n : Word) : (s.advance n).params = s.params := rfl

/-! ## raise -/

@[simp] theorem State.raise_a (x : FaultInfo) : (s.raise x).a = s.a := rfl
@[simp] theorem State.raise_b (x : FaultInfo) : (s.raise x).b = s.b := rfl
@[simp] theorem State.raise_c (x : FaultInfo) : (s.raise x).c = s.c := rfl
@[simp] theorem State.raise_d (x : FaultInfo) : (s.raise x).d = s.d := rfl
@[simp] theorem State.raise_e (x : FaultInfo) : (s.raise x).e = s.e := rfl
@[simp] theorem State.raise_h (x : FaultInfo) : (s.raise x).h = s.h := rfl
@[simp] theorem State.raise_l (x : FaultInfo) : (s.raise x).l = s.l := rfl
@[simp] theorem State.raise_f (x : FaultInfo) : (s.raise x).f = s.f := rfl
@[simp] theorem State.raise_sp (x : FaultInfo) : (s.raise x).sp = s.sp := rfl
@[simp] theorem State.raise_pc (x : FaultInfo) : (s.raise x).pc = s.pc := rfl
@[simp] theorem State.raise_ime (x : FaultInfo) : (s.raise x).ime = s.ime := rfl
@[simp] theorem State.raise_run (x : FaultInfo) : (s.raise x).run = .faulted s.pc x := rfl
@[simp] theorem State.raise_p15 (x : FaultInfo) : (s.raise x).p15 = s.p15 := rfl
@[simp] theorem State.raise_p14 (x : FaultInfo) : (s.raise x).p14 = s.p14 := rfl
@[simp] theorem State.raise_mem (x : FaultInfo) : (s.raise x).mem = s.mem := rfl
@[simp] theorem State.raise_joypad (x : FaultInfo) : (s.raise x).joypad = s.joypad := rfl
@[simp] theorem State.raise_inputs (x : FaultInfo) : (s.raise x).inputs = s.inputs := rfl
@[simp] theorem State.raise_params (x : FaultInfo) : (s.raise x).params = s.params := rfl

/-! ## putA -/

@[simp] theorem State.putA_a (r : AluResult) : (s.putA r).a = r.val := rfl
@[simp] theorem State.putA_b (r : AluResult) : (s.putA r).b = s.b := rfl
@[simp] theorem State.putA_c (r : AluResult) : (s.putA r).c = s.c := rfl
@[simp] theorem State.putA_d (r : AluResult) : (s.putA r).d = s.d := rfl
@[simp] theorem State.putA_e (r : AluResult) : (s.putA r).e = s.e := rfl
@[simp] theorem State.putA_h (r : AluResult) : (s.putA r).h = s.h := rfl
@[simp] theorem State.putA_l (r : AluResult) : (s.putA r).l = s.l := rfl
@[simp] theorem State.putA_f (r : AluResult) : (s.putA r).f = r.flags := rfl
@[simp] theorem State.putA_sp (r : AluResult) : (s.putA r).sp = s.sp := rfl
@[simp] theorem State.putA_pc (r : AluResult) : (s.putA r).pc = s.pc := rfl
@[simp] theorem State.putA_ime (r : AluResult) : (s.putA r).ime = s.ime := rfl
@[simp] theorem State.putA_run (r : AluResult) : (s.putA r).run = s.run := rfl
@[simp] theorem State.putA_p15 (r : AluResult) : (s.putA r).p15 = s.p15 := rfl
@[simp] theorem State.putA_p14 (r : AluResult) : (s.putA r).p14 = s.p14 := rfl
@[simp] theorem State.putA_mem (r : AluResult) : (s.putA r).mem = s.mem := rfl
@[simp] theorem State.putA_joypad (r : AluResult) : (s.putA r).joypad = s.joypad := rfl
@[simp] theorem State.putA_inputs (r : AluResult) : (s.putA r).inputs = s.inputs := rfl
@[simp] theorem State.putA_params (r : AluResult) : (s.putA r).params = s.params := rfl

/-! ## setBc -/

@[simp] theorem State.setBc_a (v : Word) : (s.setBc v).a = s.a := rfl
@[simp] theorem State.setBc_b (v : Word) : (s.setBc v).b = hiByte v := rfl
@[simp] theorem State.setBc_c (v : Word) : (s.setBc v).c = loByte v := rfl
@[simp] theorem State.setBc_d (v : Word) : (s.setBc v).d = s.d := rfl
@[simp] theorem State.setBc_e (v : Word) : (s.setBc v).e = s.e := rfl
@[simp] theorem State.setBc_h (v : Word) : (s.setBc v).h = s.h := rfl
@[simp] theorem State.setBc_l (v : Word) : (s.setBc v).l = s.l := rfl
@[simp] theorem State.setBc_f (v : Word) : (s.setBc v).f = s.f := rfl
@[simp] theorem State.setBc_sp (v : Word) : (s.setBc v).sp = s.sp := rfl
@[simp] theorem State.setBc_pc (v : Word) : (s.setBc v).pc = s.pc := rfl
@[simp] theorem State.setBc_ime (v : Word) : (s.setBc v).ime = s.ime := rfl
@[simp] theorem State.setBc_run (v : Word) : (s.setBc v).run = s.run := rfl
@[simp] theorem State.setBc_p15 (v : Word) : (s.setBc v).p15 = s.p15 := rfl
@[simp] theorem State.setBc_p14 (v : Word) : (s.setBc v).p14 = s.p14 := rfl
@[simp] theorem State.setBc_mem (v : Word) : (s.setBc v).mem = s.mem := rfl
@[simp] theorem State.setBc_joypad (v : Word) : (s.setBc v).joypad = s.joypad := rfl
@[simp] theorem State.setBc_inputs (v : Word) : (s.setBc v).inputs = s.inputs := rfl
@[simp] theorem State.setBc_params (v : Word) : (s.setBc v).params = s.params := rfl

/-! ## setDe -/

@[simp] theorem State.setDe_a (v : Word) : (s.setDe v).a = s.a := rfl
@[simp] theorem State.setDe_b (v : Word) : (s.setDe v).b = s.b := rfl
@[simp] theorem State.setDe_c (v : Word) : (s.setDe v).c = s.c := rfl
@[simp] theorem State.setDe_d (v : Word) : (s.setDe v).d = hiByte v := rfl
@[simp] theorem State.setDe_e (v : Word) : (s.setDe v).e = loByte v := rfl
@[simp] theorem State.setDe_h (v : Word) : (s.setDe v).h = s.h := rfl
@[simp] theorem State.setDe_l (v : Word) : (s.setDe v).l = s.l := rfl
@[simp] theorem State.setDe_f (v : Word) : (s.setDe v).f = s.f := rfl
@[simp] theorem State.setDe_sp (v : Word) : (s.setDe v).sp = s.sp := rfl
@[simp] theorem State.setDe_pc (v : Word) : (s.setDe v).pc = s.pc := rfl
@[simp] theorem State.setDe_ime (v : Word) : (s.setDe v).ime = s.ime := rfl
@[simp] theorem State.setDe_run (v : Word) : (s.setDe v).run = s.run := rfl
@[simp] theorem State.setDe_p15 (v : Word) : (s.setDe v).p15 = s.p15 := rfl
@[simp] theorem State.setDe_p14 (v : Word) : (s.setDe v).p14 = s.p14 := rfl
@[simp] theorem State.setDe_mem (v : Word) : (s.setDe v).mem = s.mem := rfl
@[simp] theorem State.setDe_joypad (v : Word) : (s.setDe v).joypad = s.joypad := rfl
@[simp] theorem State.setDe_inputs (v : Word) : (s.setDe v).inputs = s.inputs := rfl
@[simp] theorem State.setDe_params (v : Word) : (s.setDe v).params = s.params := rfl

/-! ## setHl -/

@[simp] theorem State.setHl_a (v : Word) : (s.setHl v).a = s.a := rfl
@[simp] theorem State.setHl_b (v : Word) : (s.setHl v).b = s.b := rfl
@[simp] theorem State.setHl_c (v : Word) : (s.setHl v).c = s.c := rfl
@[simp] theorem State.setHl_d (v : Word) : (s.setHl v).d = s.d := rfl
@[simp] theorem State.setHl_e (v : Word) : (s.setHl v).e = s.e := rfl
@[simp] theorem State.setHl_h (v : Word) : (s.setHl v).h = hiByte v := rfl
@[simp] theorem State.setHl_l (v : Word) : (s.setHl v).l = loByte v := rfl
@[simp] theorem State.setHl_f (v : Word) : (s.setHl v).f = s.f := rfl
@[simp] theorem State.setHl_sp (v : Word) : (s.setHl v).sp = s.sp := rfl
@[simp] theorem State.setHl_pc (v : Word) : (s.setHl v).pc = s.pc := rfl
@[simp] theorem State.setHl_ime (v : Word) : (s.setHl v).ime = s.ime := rfl
@[simp] theorem State.setHl_run (v : Word) : (s.setHl v).run = s.run := rfl
@[simp] theorem State.setHl_p15 (v : Word) : (s.setHl v).p15 = s.p15 := rfl
@[simp] theorem State.setHl_p14 (v : Word) : (s.setHl v).p14 = s.p14 := rfl
@[simp] theorem State.setHl_mem (v : Word) : (s.setHl v).mem = s.mem := rfl
@[simp] theorem State.setHl_joypad (v : Word) : (s.setHl v).joypad = s.joypad := rfl
@[simp] theorem State.setHl_inputs (v : Word) : (s.setHl v).inputs = s.inputs := rfl
@[simp] theorem State.setHl_params (v : Word) : (s.setHl v).params = s.params := rfl

/-! ## setAf -/

@[simp] theorem State.setAf_a (v : Word) : (s.setAf v).a = hiByte v := rfl
@[simp] theorem State.setAf_b (v : Word) : (s.setAf v).b = s.b := rfl
@[simp] theorem State.setAf_c (v : Word) : (s.setAf v).c = s.c := rfl
@[simp] theorem State.setAf_d (v : Word) : (s.setAf v).d = s.d := rfl
@[simp] theorem State.setAf_e (v : Word) : (s.setAf v).e = s.e := rfl
@[simp] theorem State.setAf_h (v : Word) : (s.setAf v).h = s.h := rfl
@[simp] theorem State.setAf_l (v : Word) : (s.setAf v).l = s.l := rfl
@[simp] theorem State.setAf_f (v : Word) : (s.setAf v).f = flagsOfByte (loByte v) := rfl
@[simp] theorem State.setAf_sp (v : Word) : (s.setAf v).sp = s.sp := rfl
@[simp] theorem State.setAf_pc (v : Word) : (s.setAf v).pc = s.pc := rfl
@[simp] theorem State.setAf_ime (v : Word) : (s.setAf v).ime = s.ime := rfl
@[simp] theorem State.setAf_run (v : Word) : (s.setAf v).run = s.run := rfl
@[simp] theorem State.setAf_p15 (v : Word) : (s.setAf v).p15 = s.p15 := rfl
@[simp] theorem State.setAf_p14 (v : Word) : (s.setAf v).p14 = s.p14 := rfl
@[simp] theorem State.setAf_mem (v : Word) : (s.setAf v).mem = s.mem := rfl
@[simp] theorem State.setAf_joypad (v : Word) : (s.setAf v).joypad = s.joypad := rfl
@[simp] theorem State.setAf_inputs (v : Word) : (s.setAf v).inputs = s.inputs := rfl
@[simp] theorem State.setAf_params (v : Word) : (s.setAf v).params = s.params := rfl

/-! ## joypWrite -/

@[simp] theorem State.joypWrite_a (v : Byte) : (s.joypWrite v).a = s.a := rfl
@[simp] theorem State.joypWrite_b (v : Byte) : (s.joypWrite v).b = s.b := rfl
@[simp] theorem State.joypWrite_c (v : Byte) : (s.joypWrite v).c = s.c := rfl
@[simp] theorem State.joypWrite_d (v : Byte) : (s.joypWrite v).d = s.d := rfl
@[simp] theorem State.joypWrite_e (v : Byte) : (s.joypWrite v).e = s.e := rfl
@[simp] theorem State.joypWrite_h (v : Byte) : (s.joypWrite v).h = s.h := rfl
@[simp] theorem State.joypWrite_l (v : Byte) : (s.joypWrite v).l = s.l := rfl
@[simp] theorem State.joypWrite_f (v : Byte) : (s.joypWrite v).f = s.f := rfl
@[simp] theorem State.joypWrite_sp (v : Byte) : (s.joypWrite v).sp = s.sp := rfl
@[simp] theorem State.joypWrite_pc (v : Byte) : (s.joypWrite v).pc = s.pc := rfl
@[simp] theorem State.joypWrite_ime (v : Byte) : (s.joypWrite v).ime = s.ime := rfl
@[simp] theorem State.joypWrite_run (v : Byte) : (s.joypWrite v).run = s.run := rfl
@[simp] theorem State.joypWrite_p15 (v : Byte) : (s.joypWrite v).p15 = v.getLsbD 5 := rfl
@[simp] theorem State.joypWrite_p14 (v : Byte) : (s.joypWrite v).p14 = v.getLsbD 4 := rfl
@[simp] theorem State.joypWrite_mem (v : Byte) : (s.joypWrite v).mem = s.mem := rfl
@[simp] theorem State.joypWrite_joypad (v : Byte) : (s.joypWrite v).joypad = s.joypad := rfl
@[simp] theorem State.joypWrite_inputs (v : Byte) : (s.joypWrite v).inputs = s.inputs := rfl
@[simp] theorem State.joypWrite_params (v : Byte) : (s.joypWrite v).params = s.params := rfl

/-! ## drawInput -/

@[simp] theorem State.drawInput_a : s.drawInput.a = s.a := rfl
@[simp] theorem State.drawInput_b : s.drawInput.b = s.b := rfl
@[simp] theorem State.drawInput_c : s.drawInput.c = s.c := rfl
@[simp] theorem State.drawInput_d : s.drawInput.d = s.d := rfl
@[simp] theorem State.drawInput_e : s.drawInput.e = s.e := rfl
@[simp] theorem State.drawInput_h : s.drawInput.h = s.h := rfl
@[simp] theorem State.drawInput_l : s.drawInput.l = s.l := rfl
@[simp] theorem State.drawInput_f : s.drawInput.f = s.f := rfl
@[simp] theorem State.drawInput_sp : s.drawInput.sp = s.sp := rfl
@[simp] theorem State.drawInput_pc : s.drawInput.pc = s.pc := rfl
@[simp] theorem State.drawInput_ime : s.drawInput.ime = s.ime := rfl
@[simp] theorem State.drawInput_run : s.drawInput.run = s.run := rfl
@[simp] theorem State.drawInput_p15 : s.drawInput.p15 = s.p15 := rfl
@[simp] theorem State.drawInput_p14 : s.drawInput.p14 = s.p14 := rfl
@[simp] theorem State.drawInput_mem : s.drawInput.mem = s.mem := rfl
@[simp] theorem State.drawInput_params : s.drawInput.params = s.params := rfl
@[simp] theorem State.drawInput_joypad : s.drawInput.joypad = s.inputs.headD s.joypad := rfl
@[simp] theorem State.drawInput_inputs : s.drawInput.inputs = s.inputs.tail := rfl

/-- Without inputs to come the host changes nothing. -/
theorem State.drawInput_eq_self {s : State} (h : s.inputs = []) : s.drawInput = s := by
  unfold State.drawInput
  rw [h]
  cases s
  cases h
  rfl

/-! ## setInput -/

@[simp] theorem State.setInput_a (j : JoypadState) : (s.setInput j).a = s.a := rfl
@[simp] theorem State.setInput_b (j : JoypadState) : (s.setInput j).b = s.b := rfl
@[simp] theorem State.setInput_c (j : JoypadState) : (s.setInput j).c = s.c := rfl
@[simp] theorem State.setInput_d (j : JoypadState) : (s.setInput j).d = s.d := rfl
@[simp] theorem State.setInput_e (j : JoypadState) : (s.setInput j).e = s.e := rfl
@[simp] theorem State.setInput_h (j : JoypadState) : (s.setInput j).h = s.h := rfl
@[simp] theorem State.setInput_l (j : JoypadState) : (s.setInput j).l = s.l := rfl
@[simp] theorem State.setInput_f (j : JoypadState) : (s.setInput j).f = s.f := rfl
@[simp] theorem State.setInput_sp (j : JoypadState) : (s.setInput j).sp = s.sp := rfl
@[simp] theorem State.setInput_pc (j : JoypadState) : (s.setInput j).pc = s.pc := rfl
@[simp] theorem State.setInput_ime (j : JoypadState) : (s.setInput j).ime = s.ime := rfl
@[simp] theorem State.setInput_run (j : JoypadState) : (s.setInput j).run = s.run := rfl
@[simp] theorem State.setInput_p15 (j : JoypadState) : (s.setInput j).p15 = s.p15 := rfl
@[simp] theorem State.setInput_p14 (j : JoypadState) : (s.setInput j).p14 = s.p14 := rfl
@[simp] theorem State.setInput_mem (j : JoypadState) : (s.setInput j).mem = s.mem := rfl
@[simp] theorem State.setInput_joypad (j : JoypadState) : (s.setInput j).joypad = j := rfl
@[simp] theorem State.setInput_inputs (j : JoypadState) : (s.setInput j).inputs = [] := rfl
@[simp] theorem State.setInput_params (j : JoypadState) : (s.setInput j).params = s.params := rfl

/-! ## setR8 -/

@[simp] theorem State.setR8_f (r : R8) (v : Byte) : (s.setR8 r v).f = s.f := by cases r <;> rfl
@[simp] theorem State.setR8_sp (r : R8) (v : Byte) : (s.setR8 r v).sp = s.sp := by cases r <;> rfl
@[simp] theorem State.setR8_pc (r : R8) (v : Byte) : (s.setR8 r v).pc = s.pc := by cases r <;> rfl
@[simp] theorem State.setR8_ime (r : R8) (v : Byte) : (s.setR8 r v).ime = s.ime := by cases r <;> rfl
@[simp] theorem State.setR8_run (r : R8) (v : Byte) : (s.setR8 r v).run = s.run := by cases r <;> rfl
@[simp] theorem State.setR8_p15 (r : R8) (v : Byte) : (s.setR8 r v).p15 = s.p15 := by cases r <;> rfl
@[simp] theorem State.setR8_p14 (r : R8) (v : Byte) : (s.setR8 r v).p14 = s.p14 := by cases r <;> rfl
@[simp] theorem State.setR8_mem (r : R8) (v : Byte) : (s.setR8 r v).mem = s.mem := by cases r <;> rfl
@[simp] theorem State.setR8_joypad (r : R8) (v : Byte) : (s.setR8 r v).joypad = s.joypad := by cases r <;> rfl
@[simp] theorem State.setR8_inputs (r : R8) (v : Byte) : (s.setR8 r v).inputs = s.inputs := by cases r <;> rfl
@[simp] theorem State.setR8_params (r : R8) (v : Byte) : (s.setR8 r v).params = s.params := by cases r <;> rfl

/-! ## setPair -/

@[simp] theorem State.setPair_a (rr : Pair) (v : Word) : (s.setPair rr v).a = s.a := by cases rr <;> rfl
@[simp] theorem State.setPair_f (rr : Pair) (v : Word) : (s.setPair rr v).f = s.f := by cases rr <;> rfl
@[simp] theorem State.setPair_pc (rr : Pair) (v : Word) : (s.setPair rr v).pc = s.pc := by cases rr <;> rfl
@[simp] theorem State.setPair_ime (rr : Pair) (v : Word) : (s.setPair rr v).ime = s.ime := by cases rr <;> rfl
@[simp] theorem State.setPair_run (rr : Pair) (v : Word) : (s.setPair rr v).run = s.run := by cases rr <;> rfl
@[simp] theorem State.setPair_p15 (rr : Pair) (v : Word) : (s.setPair rr v).p15 = s.p15 := by cases rr <;> rfl
@[simp] theorem State.setPair_p14 (rr : Pair) (v : Word) : (s.setPair rr v).p14 = s.p14 := by cases rr <;> rfl
@[simp] theorem State.setPair_mem (rr : Pair) (v : Word) : (s.setPair rr v).mem = s.mem := by cases rr <;> rfl
@[simp] theorem State.setPair_joypad (rr : Pair) (v : Word) : (s.setPair rr v).joypad = s.joypad := by cases rr <;> rfl
@[simp] theorem State.setPair_inputs (rr : Pair) (v : Word) : (s.setPair rr v).inputs = s.inputs := by cases rr <;> rfl
@[simp] theorem State.setPair_params (rr : Pair) (v : Word) : (s.setPair rr v).params = s.params := by cases rr <;> rfl

/-! ## setStackPair -/

@[simp] theorem State.setStackPair_sp (rr : StackPair) (v : Word) : (s.setStackPair rr v).sp = s.sp := by cases rr <;> rfl
@[simp] theorem State.setStackPair_pc (rr : StackPair) (v : Word) : (s.setStackPair rr v).pc = s.pc := by cases rr <;> rfl
@[simp] theorem State.setStackPair_ime (rr : StackPair) (v : Word) : (s.setStackPair rr v).ime = s.ime := by cases rr <;> rfl
@[simp] theorem State.setStackPair_run (rr : StackPair) (v : Word) : (s.setStackPair rr v).run = s.run := by cases rr <;> rfl
@[simp] theorem State.setStackPair_p15 (rr : StackPair) (v : Word) : (s.setStackPair rr v).p15 = s.p15 := by cases rr <;> rfl
@[simp] theorem State.setStackPair_p14 (rr : StackPair) (v : Word) : (s.setStackPair rr v).p14 = s.p14 := by cases rr <;> rfl
@[simp] theorem State.setStackPair_mem (rr : StackPair) (v : Word) : (s.setStackPair rr v).mem = s.mem := by cases rr <;> rfl
@[simp] theorem State.setStackPair_joypad (rr : StackPair) (v : Word) : (s.setStackPair rr v).joypad = s.joypad := by cases rr <;> rfl
@[simp] theorem State.setStackPair_inputs (rr : StackPair) (v : Word) : (s.setStackPair rr v).inputs = s.inputs := by cases rr <;> rfl
@[simp] theorem State.setStackPair_params (rr : StackPair) (v : Word) : (s.setStackPair rr v).params = s.params := by cases rr <;> rfl

/-! ## writeByte -/

@[simp] theorem State.writeByte_a (x : Word) (v : Byte) : (s.writeByte x v).a = s.a := by unfold State.writeByte; split <;> rfl
@[simp] theorem State.writeByte_b (x : Word) (v : Byte) : (s.writeByte x v).b = s.b := by unfold State.writeByte; split <;> rfl
@[simp] theorem State.writeByte_c (x : Word) (v : Byte) : (s.writeByte x v).c = s.c := by unfold State.writeByte; split <;> rfl
@[simp] theorem State.writeByte_d (x : Word) (v : Byte) : (s.writeByte x v).d = s.d := by unfold State.writeByte; split <;> rfl
@[simp] theorem State.writeByte_e (x : Word) (v : Byte) : (s.writeByte x v).e = s.e := by unfold State.writeByte; split <;> rfl
@[simp] theorem State.writeByte_h (x : Word) (v : Byte) : (s.writeByte x v).h = s.h := by unfold State.writeByte; split <;> rfl
@[simp] theorem State.writeByte_l (x : Word) (v : Byte) : (s.writeByte x v).l = s.l := by unfold State.writeByte; split <;> rfl
@[simp] theorem State.writeByte_f (x : Word) (v : Byte) : (s.writeByte x v).f = s.f := by unfold State.writeByte; split <;> rfl
@[simp] theorem State.writeByte_sp (x : Word) (v : Byte) : (s.writeByte x v).sp = s.sp := by unfold State.writeByte; split <;> rfl
@[simp] theorem State.writeByte_pc (x : Word) (v : Byte) : (s.writeByte x v).pc = s.pc := by unfold State.writeByte; split <;> rfl
@[simp] theorem State.writeByte_ime (x : Word) (v : Byte) : (s.writeByte x v).ime = s.ime := by unfold State.writeByte; split <;> rfl
@[simp] theorem State.writeByte_run (x : Word) (v : Byte) : (s.writeByte x v).run = s.run := by unfold State.writeByte; split <;> rfl
@[simp] theorem State.writeByte_joypad (x : Word) (v : Byte) : (s.writeByte x v).joypad = s.joypad := by unfold State.writeByte; split <;> rfl
@[simp] theorem State.writeByte_inputs (x : Word) (v : Byte) : (s.writeByte x v).inputs = s.inputs := by unfold State.writeByte; split <;> rfl
@[simp] theorem State.writeByte_params (x : Word) (v : Byte) : (s.writeByte x v).params = s.params := by unfold State.writeByte; split <;> rfl

/-! ## What a register update leaves of the bus -/

@[simp] theorem State.setA_permits (v : Byte) (x : Word) : (s.setA v).permits x = s.permits x := rfl
@[simp] theorem State.setA_readByte (v : Byte) (x : Word) : (s.setA v).readByte x = s.readByte x := rfl
@[simp] theorem State.setF_permits (v : Flags) (x : Word) : (s.setF v).permits x = s.permits x := rfl
@[simp] theorem State.setF_readByte (v : Flags) (x : Word) : (s.setF v).readByte x = s.readByte x := rfl
@[simp] theorem State.setSp_permits (v : Word) (x : Word) : (s.setSp v).permits x = s.permits x := rfl
@[simp] theorem State.setSp_readByte (v : Word) (x : Word) : (s.setSp v).readByte x = s.readByte x := rfl
@[simp] theorem State.setPc_permits (v : Word) (x : Word) : (s.setPc v).permits x = s.permits x := rfl
@[simp] theorem State.setPc_readByte (v : Word) (x : Word) : (s.setPc v).readByte x = s.readByte x := rfl
@[simp] theorem State.setRun_permits (v : RunState) (x : Word) : (s.setRun v).permits x = s.permits x := rfl
@[simp] theorem State.setRun_readByte (v : RunState) (x : Word) : (s.setRun v).readByte x = s.readByte x := rfl
@[simp] theorem State.setIme_permits (v : Bool) (x : Word) : (s.setIme v).permits x = s.permits x := rfl
@[simp] theorem State.setIme_readByte (v : Bool) (x : Word) : (s.setIme v).readByte x = s.readByte x := rfl
@[simp] theorem State.advance_permits (v : Word) (x : Word) : (s.advance v).permits x = s.permits x := rfl
@[simp] theorem State.advance_readByte (v : Word) (x : Word) : (s.advance v).readByte x = s.readByte x := rfl
@[simp] theorem State.raise_permits (v : FaultInfo) (x : Word) : (s.raise v).permits x = s.permits x := rfl
@[simp] theorem State.raise_readByte (v : FaultInfo) (x : Word) : (s.raise v).readByte x = s.readByte x := rfl
@[simp] theorem State.putA_permits (v : AluResult) (x : Word) : (s.putA v).permits x = s.permits x := rfl
@[simp] theorem State.putA_readByte (v : AluResult) (x : Word) : (s.putA v).readByte x = s.readByte x := rfl
@[simp] theorem State.setBc_permits (v : Word) (x : Word) : (s.setBc v).permits x = s.permits x := rfl
@[simp] theorem State.setBc_readByte (v : Word) (x : Word) : (s.setBc v).readByte x = s.readByte x := rfl
@[simp] theorem State.setDe_permits (v : Word) (x : Word) : (s.setDe v).permits x = s.permits x := rfl
@[simp] theorem State.setDe_readByte (v : Word) (x : Word) : (s.setDe v).readByte x = s.readByte x := rfl
@[simp] theorem State.setHl_permits (v : Word) (x : Word) : (s.setHl v).permits x = s.permits x := rfl
@[simp] theorem State.setHl_readByte (v : Word) (x : Word) : (s.setHl v).readByte x = s.readByte x := rfl
@[simp] theorem State.setAf_permits (v : Word) (x : Word) : (s.setAf v).permits x = s.permits x := rfl
@[simp] theorem State.setAf_readByte (v : Word) (x : Word) : (s.setAf v).readByte x = s.readByte x := rfl
@[simp] theorem State.setR8_permits (r : R8) (v : Byte) (x : Word) : (s.setR8 r v).permits x = s.permits x := by cases r <;> rfl
@[simp] theorem State.setR8_readByte (r : R8) (v : Byte) (x : Word) : (s.setR8 r v).readByte x = s.readByte x := by cases r <;> rfl
@[simp] theorem State.setPair_permits (rr : Pair) (v : Word) (x : Word) : (s.setPair rr v).permits x = s.permits x := by cases rr <;> rfl
@[simp] theorem State.setPair_readByte (rr : Pair) (v : Word) (x : Word) : (s.setPair rr v).readByte x = s.readByte x := by cases rr <;> rfl
@[simp] theorem State.setStackPair_permits (rr : StackPair) (v : Word) (x : Word) : (s.setStackPair rr v).permits x = s.permits x := by cases rr <;> rfl
@[simp] theorem State.setStackPair_readByte (rr : StackPair) (v : Word) (x : Word) : (s.setStackPair rr v).readByte x = s.readByte x := by cases rr <;> rfl

/-! ## Registers and pairs -/

@[simp] theorem State.getR8_setR8 (r : R8) (v : Byte) : (s.setR8 r v).getR8 r = v := by cases r <;> rfl

theorem State.getR8_setR8_ne {r q : R8} (v : Byte) (h : q ≠ r) : (s.setR8 r v).getR8 q = s.getR8 q := by
  cases r <;> cases q <;> first | rfl | exact absurd rfl h

theorem toNat_hiByte (v : Word) : (hiByte v).toNat = v.toNat / 256 := by
  have := v.isLt
  simp only [hiByte, BitVec.extractLsb'_toNat, Nat.shiftRight_eq_div_pow]
  omega

theorem toNat_loByte (v : Word) : (loByte v).toNat = v.toNat % 256 := by
  simp [loByte, BitVec.extractLsb'_toNat]

theorem toNat_wordOf (hi lo : Byte) : (wordOf hi lo).toNat = hi.toNat * 256 + lo.toNat := by
  have := lo.isLt
  rw [wordOf, BitVec.toNat_append, Nat.shiftLeft_eq, Nat.mul_comm, ← Nat.two_pow_add_eq_or_of_lt this]

@[simp] theorem wordOf_hi_lo (v : Word) : wordOf (hiByte v) (loByte v) = v := by
  apply BitVec.eq_of_toNat_eq
  rw [toNat_wordOf, toNat_hiByte, toNat_loByte]
  omega

@[simp] theorem hiByte_wordOf (hi lo : Byte) : hiByte (wordOf hi lo) = hi := by
  have := lo.isLt
  apply BitVec.eq_of_toNat_eq
  rw [toNat_hiByte, toNat_wordOf]
  omega

@[simp] theorem loByte_wordOf (hi lo : Byte) : loByte (wordOf hi lo) = lo := by
  have := lo.isLt
  apply BitVec.eq_of_toNat_eq
  rw [toNat_loByte, toNat_wordOf]
  omega

@[simp] theorem State.getPair_setPair (rr : Pair) (v : Word) : (s.setPair rr v).getPair rr = v := by
  cases rr <;> simp [State.setPair, State.getPair, State.bc, State.de, State.hl]

@[simp] theorem State.hl_setHl (v : Word) : (s.setHl v).hl = v := by simp [State.hl]

end Sys2Proof.Machine
end

