-- ==== Sys2Proof/Laws/Bus.lean ====
section
/-! SUPPORT. What each shared operation over the bus, the stack and the end of a step answers, said once. -/

namespace Sys2Proof.Machine

variable (s t : State)

/-! ## What goes through -/

theorem State.permits_sentinel (h : s.params.oobPolicy = .sentinel) (a : Word) : s.permits a = true := by
  simp [State.permits, h]

theorem State.permits_inBounds {a : Word} (h : (region a).outOfBounds = false) : s.permits a = true := by
  unfold State.permits
  split <;> simp [h]

theorem State.permits_congr {s t : State} (h : t.params = s.params) (a : Word) : t.permits a = s.permits a := by
  simp [State.permits, h]

@[simp] theorem State.permits_writeByte (x : Word) (v : Byte) (a : Word) : (s.writeByte x v).permits a = s.permits a :=
  State.permits_congr (State.writeByte_params s x v) a

theorem State.busRead_eq (a : Word) :
    s.busRead a = if s.permits a then .ok (s.readByte a) else .error ⟨a, .read⟩ := rfl

theorem State.busWrite_eq (a : Word) (v : Byte) :
    s.busWrite a v = if s.permits a then .ok (s.writeByte a v) else .error ⟨a, .write⟩ := rfl

/-! ## A byte written, a byte read -/

theorem State.writeByte_setSp (w x : Word) (v : Byte) : (s.setSp w).writeByte x v = (s.writeByte x v).setSp w := by
  unfold State.writeByte
  cases region x <;> rfl

/-! ## The address map, row by row -/

theorem regionAt_rom {n : Nat} (h₂ : n < 0x8000) : regionAt n = .rom := by
  simp only [regionAt, h₂, if_true]

theorem regionAt_vram {n : Nat} (h₁ : 0x8000 ≤ n) (h₂ : n < 0xA000) : regionAt n = .vram := by
  simp only [regionAt, show ¬n < 0x8000 by omega, h₂, if_false, if_true]

theorem regionAt_cartRam {n : Nat} (h₁ : 0xA000 ≤ n) (h₂ : n < 0xC000) : regionAt n = .cartRam := by
  simp only [regionAt, show ¬n < 0x8000 by omega, show ¬n < 0xA000 by omega, h₂, if_false, if_true]

theorem regionAt_wram {n : Nat} (h₁ : 0xC000 ≤ n) (h₂ : n < 0xE000) : regionAt n = .wram := by
  simp only [regionAt, show ¬n < 0x8000 by omega, show ¬n < 0xA000 by omega, show ¬n < 0xC000 by omega, h₂, if_false, if_true]

theorem regionAt_echo {n : Nat} (h₁ : 0xE000 ≤ n) (h₂ : n < 0xFE00) : regionAt n = .echo := by
  simp only [regionAt, show ¬n < 0x8000 by omega, show ¬n < 0xA000 by omega, show ¬n < 0xC000 by omega,
    show ¬n < 0xE000 by omega, h₂, if_false, if_true]

theorem regionAt_oam {n : Nat} (h₁ : 0xFE00 ≤ n) (h₂ : n < 0xFEA0) : regionAt n = .oam := by
  simp only [regionAt, show ¬n < 0x8000 by omega, show ¬n < 0xA000 by omega, show ¬n < 0xC000 by omega,
    show ¬n < 0xE000 by omega, show ¬n < 0xFE00 by omega, h₂, if_false, if_true]

theorem regionAt_unusable {n : Nat} (h₁ : 0xFEA0 ≤ n) (h₂ : n < 0xFF00) : regionAt n = .unusable := by
  simp only [regionAt, show ¬n < 0x8000 by omega, show ¬n < 0xA000 by omega, show ¬n < 0xC000 by omega,
    show ¬n < 0xE000 by omega, show ¬n < 0xFE00 by omega, show ¬n < 0xFEA0 by omega, h₂, if_false, if_true]

theorem regionAt_joypad {n : Nat} (h₁ : 0xFF00 ≤ n) (h₂ : n < 0xFF01) : regionAt n = .joypad := by
  simp only [regionAt, show ¬n < 0x8000 by omega, show ¬n < 0xA000 by omega, show ¬n < 0xC000 by omega,
    show ¬n < 0xE000 by omega, show ¬n < 0xFE00 by omega, show ¬n < 0xFEA0 by omega,
    show ¬n < 0xFF00 by omega, h₂, if_false, if_true]

theorem regionAt_unimplementedIo {n : Nat} (h₁ : 0xFF01 ≤ n) (h₂ : n < 0xFF80) : regionAt n = .unimplementedIo := by
  simp only [regionAt, show ¬n < 0x8000 by omega, show ¬n < 0xA000 by omega, show ¬n < 0xC000 by omega,
    show ¬n < 0xE000 by omega, show ¬n < 0xFE00 by omega, show ¬n < 0xFEA0 by omega,
    show ¬n < 0xFF00 by omega, show ¬n < 0xFF01 by omega, h₂, if_false, if_true]

theorem regionAt_hram {n : Nat} (h₁ : 0xFF80 ≤ n) (h₂ : n < 0xFFFF) : regionAt n = .hram := by
  simp only [regionAt, show ¬n < 0x8000 by omega, show ¬n < 0xA000 by omega, show ¬n < 0xC000 by omega,
    show ¬n < 0xE000 by omega, show ¬n < 0xFE00 by omega, show ¬n < 0xFEA0 by omega,
    show ¬n < 0xFF00 by omega, show ¬n < 0xFF01 by omega, show ¬n < 0xFF80 by omega, h₂, if_false, if_true]

theorem regionAt_interruptEnable {n : Nat} (h₁ : 0xFFFF ≤ n) : regionAt n = .interruptEnable := by
  simp only [regionAt, show ¬n < 0x8000 by omega, show ¬n < 0xA000 by omega, show ¬n < 0xC000 by omega,
    show ¬n < 0xE000 by omega, show ¬n < 0xFE00 by omega, show ¬n < 0xFEA0 by omega,
    show ¬n < 0xFF00 by omega, show ¬n < 0xFF01 by omega, show ¬n < 0xFF80 by omega,
    show ¬n < 0xFFFF by omega, if_false]

theorem region_echo {a : Word} (h : region a = .echo) : 0xE000 ≤ a.toNat ∧ a.toNat < 0xFE00 := by
  unfold region regionAt at h
  split_ifs at h
  exact ⟨by omega, by omega⟩

theorem isStored_of_region {a : Nat} {r : Region} (h : regionAt a = r) (hr : r.stored = true) : isStored a = true := by
  simp only [isStored, h, hr]

/-- The WRAM cell an echo address reaches is a storage cell, R38. -/
theorem isStored_echo {a : Word} (h : region a = .echo) : isStored (a - 0x2000).toNat = true := by
  have hr := region_echo h
  have hs : (a - 0x2000).toNat = a.toNat - 0x2000 := by
    rw [BitVec.toNat_sub_of_le (BitVec.le_def.mpr (by rw [show (0x2000 : Word).toNat = 0x2000 from rfl]; omega))]
    rfl
  exact isStored_of_region (regionAt_wram (by omega) (by omega)) rfl

theorem isStored_cellOf {a : Word} {k : Nat} (h : cellOf a = some k) : isStored k = true := by
  unfold cellOf at h
  cases e : region a <;> simp only [e] at h <;> cases h
  case echo => exact isStored_echo e
  all_goals exact isStored_of_region e rfl

/-- A bus write keeps the canonical form. -/
theorem State.writeByte_inv (h : s.inv) (x : Word) (v : Byte) : (s.writeByte x v).inv := by
  unfold State.writeByte
  cases e : region x
  case echo => exact Memory.write_wf h (isStored_echo e) v
  case vram | wram | oam | hram => exact Memory.write_wf h (isStored_of_region e rfl) v
  all_goals exact h

/-- What a read reaches: the cell of the address, else the joypad register or the sentinel. -/
theorem State.readByte_eq (a : Word) :
    s.readByte a = match cellOf a with
      | some k => Memory.read s.mem k
      | none => if region a = .joypad then s.joypRead else s.params.oobSentinel := by
  unfold State.readByte cellOf
  cases h : region a <;> simp

/-- What a write reaches: nothing in ROM, the cell of a RAM address, else the select bits or nothing. -/
theorem State.writeByte_mem (x : Word) (v : Byte) :
    (s.writeByte x v).mem = match cellOf x with
      | some k => if region x = .rom then s.mem else Memory.write s.mem k v
      | none => s.mem := by
  unfold State.writeByte cellOf
  cases h : region x <;> simp

/-- A store is seen at the addresses of its place and nowhere else. -/
theorem State.readByte_writeByte_ne {x a : Word} (h : samePlace x a = false) (v : Byte) :
    (s.writeByte x v).readByte a = s.readByte a := by
  rw [State.readByte_eq, State.readByte_eq]
  rcases hx : cellOf x with _ | k
  · have hm : (s.writeByte x v).mem = s.mem := by rw [State.writeByte_mem, hx]
    rw [hm]
    cases ha : cellOf a with
    | some k => rfl
    | none =>
      by_cases hj : region a = .joypad
      · have : region x ≠ .joypad := by
          intro hxj
          simp [samePlace, hx, hj, hxj] at h
        simp only [hj, if_true]
        unfold State.writeByte
        unfold cellOf at hx
        cases hr : region x <;> simp_all
      · simp [hj]
  · have ha : cellOf a ≠ some k := by
      intro ha
      simp [samePlace, hx, ha] at h
    have hp : (s.writeByte x v).joypRead = s.joypRead := by
      unfold State.writeByte
      unfold cellOf at hx
      cases hr : region x <;> simp_all <;> rfl
    rw [hp, State.writeByte_params, State.writeByte_mem, hx]
    cases hc : cellOf a with
    | none => rfl
    | some j =>
      have : j ≠ k := fun e => ha (by rw [hc, e])
      by_cases hr : region x = .rom
      · simp [hr]
      · simp [hr, Memory.read_write_ne _ _ this]

/-- A bus write leaves every ROM cell as it was, R34. -/
theorem State.writeByte_rom (x : Word) (v : Byte) {a : Nat} (h : a < 0x8000) :
    Memory.read (s.writeByte x v).mem a = Memory.read s.mem a := by
  rw [State.writeByte_mem]
  rcases hx : cellOf x with _ | k
  · rfl
  · by_cases hr : region x = .rom
    · simp [hr]
    · have hk : a ≠ k := by
        rintro rfl
        unfold cellOf at hx
        cases e : region x <;> simp only [e] at hx <;> cases hx
        case rom => exact hr e
        case echo =>
          have he := region_echo e
          rw [BitVec.toNat_sub_of_le (BitVec.le_def.mpr (by rw [show (0x2000 : Word).toNat = 0x2000 from rfl]; omega)),
            show (0x2000 : Word).toNat = 0x2000 from rfl] at h
          omega
        all_goals
          rw [region, regionAt_rom h] at e
          cases e
      simp [hr, Memory.read_write_ne _ _ hk]

/-! ## The host's input -/

theorem State.drawInput_permits (a : Word) : s.drawInput.permits a = s.permits a := rfl

theorem region_joypad_eq {a : Word} (h : region a = .joypad) : a = 0xFF00 := by
  unfold region regionAt at h
  apply BitVec.eq_of_toNat_eq
  split_ifs at h
  have : a.toNat = 0xFF00 := by omega
  exact this

/-- The host's input is seen in the joypad register only, R152. -/
theorem State.drawInput_readByte {a : Word} (h : a ≠ 0xFF00) : s.drawInput.readByte a = s.readByte a := by
  have hj : region a ≠ .joypad := fun hr => h (region_joypad_eq hr)
  unfold State.readByte
  cases hr : region a <;> first | rfl | exact absurd hr hj

/-! ## The end of a step -/

@[simp] theorem State.finish_ok : s.finish (.ok t) = .next t := rfl

@[simp] theorem State.finish_error (x : OobAccess) : s.finish (.error x) = .next (s.raise (.outOfBounds x.addr x.kind)) := rfl

theorem State.onRead_eq (a : Word) (k : Byte → State) :
    s.onRead a k = .next (if s.permits a then k (s.readByte a) else s.raise (.outOfBounds a .read)) := by
  unfold State.onRead State.busRead
  split <;> rfl

theorem State.onWrite_eq (a : Word) (v : Byte) (k : State → State) :
    s.onWrite a v k = .next (if s.permits a then k (s.writeByte a v) else s.raise (.outOfBounds a .write)) := by
  unfold State.onWrite State.busWrite
  split <;> rfl

/-- What a 16-bit bus write answers, R12. -/
theorem State.busWrite16_eq (a v : Word) :
    s.busWrite16 a v =
      if s.permits a then
        if s.permits (a + 1) then .ok ((s.writeByte a (loByte v)).writeByte (a + 1) (hiByte v)) else .error ⟨a + 1, .write⟩
      else .error ⟨a, .write⟩ := by
  unfold State.busWrite16 State.busWrite
  by_cases h : s.permits a <;> simp [h, bind, Except.bind]

/-- What a push answers, R121. -/
theorem State.push_eq (v : Word) :
    s.push v =
      if s.permits (s.sp - 1) then
        if s.permits (s.sp - 2) then
          .ok (((s.writeByte (s.sp - 1) (hiByte v)).writeByte (s.sp - 2) (loByte v)).setSp (s.sp - 2))
        else .error ⟨s.sp - 2, .write⟩
      else .error ⟨s.sp - 1, .write⟩ := by
  have h2 : s.sp - 1 - 1 = s.sp - 2 := by rw [BitVec.sub_sub]; rfl
  simp only [State.push, State.busWrite, State.setSp_sp, State.setSp_permits]
  by_cases h : s.permits (s.sp - 1) = true
  · simp only [h, if_true, bind, Except.bind, State.setSp_sp, h2, State.setSp_permits,
      State.permits_writeByte, State.writeByte_setSp]
    rfl
  · simp only [h, Bool.false_eq_true, if_false, bind, Except.bind]

/-- What a 16-bit bus read answers, R12. -/
theorem State.busRead16_eq (a : Word) :
    s.busRead16 a =
      if s.permits a then
        if s.permits (a + 1) then .ok (wordOf (s.readByte (a + 1)) (s.readByte a)) else .error ⟨a + 1, .read⟩
      else .error ⟨a, .read⟩ := by
  simp only [State.busRead16, State.busRead]
  by_cases h : s.permits a = true
  · by_cases h' : s.permits (a + 1) = true <;>
      simp only [h, h', Bool.false_eq_true, if_true, if_false, bind, Except.bind, pure, Except.pure]
  · simp only [h, Bool.false_eq_true, if_false, bind, Except.bind]

/-- What a pop answers, R122. -/
theorem State.pop_eq :
    s.pop =
      if s.permits s.sp then
        if s.permits (s.sp + 1) then .ok (wordOf (s.readByte (s.sp + 1)) (s.readByte s.sp), s.setSp (s.sp + 2))
        else .error ⟨s.sp + 1, .read⟩
      else .error ⟨s.sp, .read⟩ := by
  simp only [State.pop, State.busRead16_eq]
  by_cases h : s.permits s.sp = true
  · by_cases h' : s.permits (s.sp + 1) = true <;>
      simp only [h, h', Bool.false_eq_true, if_true, if_false, bind, Except.bind, pure, Except.pure]
  · simp only [h, Bool.false_eq_true, if_false, bind, Except.bind]

/-- How a CALL ends, R130. -/
theorem State.call_eq (addr : Word) :
    s.call addr =
      .next (if s.permits (s.sp - 1) then
          if s.permits (s.sp - 2) then
            (((s.writeByte (s.sp - 1) (hiByte (s.pc + 3))).writeByte (s.sp - 2) (loByte (s.pc + 3))).setSp (s.sp - 2)).setPc addr
          else s.raise (.outOfBounds (s.sp - 2) .write)
        else s.raise (.outOfBounds (s.sp - 1) .write)) := by
  unfold State.call
  rw [State.push_eq]
  by_cases h : s.permits (s.sp - 1) = true
  · by_cases h' : s.permits (s.sp - 2) = true <;> simp only [h, h', Bool.false_eq_true, if_true, if_false] <;> rfl
  · simp only [h, Bool.false_eq_true, if_false]
    rfl

/-- How a RET ends, R132. -/
theorem State.popPc_eq :
    s.popPc =
      .next (if s.permits s.sp then
          if s.permits (s.sp + 1) then
            (s.setSp (s.sp + 2)).setPc (wordOf (s.readByte (s.sp + 1)) (s.readByte s.sp))
          else s.raise (.outOfBounds (s.sp + 1) .read)
        else s.raise (.outOfBounds s.sp .read)) := by
  unfold State.popPc
  rw [State.pop_eq]
  by_cases h : s.permits s.sp = true
  · by_cases h' : s.permits (s.sp + 1) = true <;> simp only [h, h', Bool.false_eq_true, if_true, if_false] <;> rfl
  · simp only [h, Bool.false_eq_true, if_false]
    rfl

/-- What the memory forms of INC and DEC answer, R75 and R76. -/
theorem State.modifyAtHl_eq (op : Byte → Flags → AluResult) :
    s.modifyAtHl op =
      .next (if s.permits s.hl then
          ((s.writeByte s.hl (op (s.readByte s.hl) s.f).val).setF (op (s.readByte s.hl) s.f).flags).advance 1
        else s.raise (.outOfBounds s.hl .read)) := by
  unfold State.modifyAtHl State.busRead State.busWrite
  by_cases h : s.permits s.hl <;> simp [h, bind, Except.bind, pure, Except.pure]

end Sys2Proof.Machine
end

