-- ==== Sys2Proof/Laws/Decode.lean ====
section
/-! SUPPORT. What decoding and fetching answer, form by form. -/

namespace Sys2Proof

theorem decode_f1 {op : Byte} {i : Instr} (h : decodeOpcode op = .f1 i) (rest : List Byte) :
    decode (op :: rest) = .ok (i, rest) := by
  cases rest <;> simp only [decode, h]

theorem decode_f2 {op : Byte} {k : Byte → Instr} (h : decodeOpcode op = .f2 k) (n : Byte) (rest : List Byte) :
    decode (op :: n :: rest) = .ok (k n, rest) := by
  simp only [decode, h]

theorem decode_f3 {op : Byte} {k : Word → Instr} (h : decodeOpcode op = .f3 k) (lo hi : Byte) (rest : List Byte) :
    decode (op :: lo :: hi :: rest) = .ok (k (wordOf hi lo), rest) := by
  simp only [decode, h]

/-- What a successful decode read: the opcode's form, and its immediates from the bytes after it. -/
theorem decode_ok {bytes rest : List Byte} {i : Instr} (h : decode bytes = .ok (i, rest)) :
    ∃ op tl, bytes = op :: tl ∧
      ((decodeOpcode op = .f1 i ∧ tl = rest) ∨
        (∃ k n, decodeOpcode op = .f2 k ∧ tl = n :: rest ∧ i = k n) ∨
        (∃ k lo hi, decodeOpcode op = .f3 k ∧ tl = lo :: hi :: rest ∧ i = k (wordOf hi lo))) := by
  rcases bytes with _ | ⟨op, tl⟩
  · cases h
  refine ⟨op, tl, rfl, ?_⟩
  cases hf : decodeOpcode op with
  | f1 j =>
    rw [decode_f1 hf] at h
    cases h
    exact .inl ⟨rfl, rfl⟩
  | f2 k =>
    rcases tl with _ | ⟨n, tl⟩
    · simp [decode, hf] at h
    · rw [decode_f2 hf] at h
      cases h
      exact .inr (.inl ⟨k, n, rfl, rfl, rfl⟩)
  | f3 k =>
    rcases tl with _ | ⟨lo, _ | ⟨hi, tl⟩⟩
    · simp [decode, hf] at h
    · simp [decode, hf] at h
    · rw [decode_f3 hf] at h
      cases h
      exact .inr (.inr ⟨k, lo, hi, rfl, rfl, rfl⟩)

namespace Machine

variable (s : State)

/-- What a fetch answers, R27 and R59: the bytes it reads, as far as the opcode's form goes, or the first denied one. -/
theorem State.fetch_eq :
    s.fetch =
      if s.permits s.pc then
        match decodeOpcode (s.readByte s.pc) with
        | .f1 i => .ok i
        | .f2 k => if s.permits (s.pc + 1) then .ok (k (s.readByte (s.pc + 1))) else .error ⟨s.pc + 1, .read⟩
        | .f3 k =>
          if s.permits (s.pc + 1) then
            if s.permits (s.pc + 2) then
              .ok (k (wordOf (s.readByte (s.pc + 2)) (s.readByte (s.pc + 1))))
            else .error ⟨s.pc + 2, .read⟩
          else .error ⟨s.pc + 1, .read⟩
      else .error ⟨s.pc, .read⟩ := by
  have h2 : s.pc + 1 + 1 = s.pc + 2 := by rw [BitVec.add_assoc]; rfl
  simp only [State.fetch, State.busRead16_eq, State.busRead_eq, h2]
  by_cases h : s.permits s.pc = true
  · simp only [h, if_true, bind, Except.bind]
    cases decodeOpcode (s.readByte s.pc) with
    | f1 i => rfl
    | f2 k =>
      by_cases h1 : s.permits (s.pc + 1) = true <;>
        simp only [h1, Bool.false_eq_true, if_true, if_false, pure, Except.pure]
    | f3 k =>
      by_cases h1 : s.permits (s.pc + 1) = true
      · by_cases h2 : s.permits (s.pc + 2) = true <;>
          simp only [h1, h2, Bool.false_eq_true, if_true, if_false, pure, Except.pure]
      · simp only [h1, Bool.false_eq_true, if_false]
  · simp only [h, bind, Except.bind, Bool.false_eq_true, if_false]

/-- What a step of a Running CPU answers, R27. -/
theorem step_running (h : s.run = .running) :
    step s = match s.drawInput.fetch with
      | .ok i => exec i s.drawInput
      | .error x => .next (s.drawInput.raise (.outOfBounds x.addr x.kind)) := by
  unfold step
  rw [h]
  cases s.drawInput.fetch <;> rfl

end Machine

end Sys2Proof
end

