-- ==== Sys2Proof/Laws/Exec.lean ====
section
/-! SUPPORT. What each register update leaves of the registers, and, for each shared shape of a meaning, what is known
when it answers a next state. -/

namespace Sys2Proof.Machine

variable (s : State)

/-! ## Registers after an update -/

@[simp] theorem State.getR8_setF (v : Flags) (r : R8) : (s.setF v).getR8 r = s.getR8 r := by cases r <;> rfl
@[simp] theorem State.getR8_setSp (v : Word) (r : R8) : (s.setSp v).getR8 r = s.getR8 r := by cases r <;> rfl
@[simp] theorem State.getR8_setPc (v : Word) (r : R8) : (s.setPc v).getR8 r = s.getR8 r := by cases r <;> rfl
@[simp] theorem State.getR8_setRun (v : RunState) (r : R8) : (s.setRun v).getR8 r = s.getR8 r := by cases r <;> rfl
@[simp] theorem State.getR8_setIme (v : Bool) (r : R8) : (s.setIme v).getR8 r = s.getR8 r := by cases r <;> rfl
@[simp] theorem State.getR8_advance (v : Word) (r : R8) : (s.advance v).getR8 r = s.getR8 r := by cases r <;> rfl
@[simp] theorem State.getR8_raise (v : FaultInfo) (r : R8) : (s.raise v).getR8 r = s.getR8 r := by cases r <;> rfl
@[simp] theorem State.getR8_writeByte (x : Word) (v : Byte) (r : R8) : (s.writeByte x v).getR8 r = s.getR8 r := by
  cases r <;> simp [State.getR8]

theorem State.getR8_setA_ne (v : Byte) {r : R8} (h : r ≠ .a) : (s.setA v).getR8 r = s.getR8 r :=
  State.getR8_setR8_ne s v h

theorem State.getR8_putA_ne (v : AluResult) {r : R8} (h : r ≠ .a) : (s.putA v).getR8 r = s.getR8 r :=
  State.getR8_setR8_ne s v.val h

theorem State.getR8_setHl_ne (v : Word) {r : R8} (h₁ : r ≠ .h) (h₂ : r ≠ .l) : (s.setHl v).getR8 r = s.getR8 r := by
  cases r <;> first | rfl | contradiction

theorem State.getR8_setPair_ne (rr : Pair) (v : Word) {r : R8} (h : rr.has r = false) :
    (s.setPair rr v).getR8 r = s.getR8 r := by
  cases rr <;> cases r <;> first | rfl | cases h

theorem State.getR8_setStackPair_ne (rr : StackPair) (v : Word) {r : R8} (h : rr.has r = false) :
    (s.setStackPair rr v).getR8 r = s.getR8 r := by
  cases rr <;> cases r <;> first | rfl | cases h

@[simp] theorem State.holds_nz : s.holds .nz = !s.f.z := rfl
@[simp] theorem State.holds_z : s.holds .z = s.f.z := rfl
@[simp] theorem State.holds_nc : s.holds .nc = !s.f.c := rfl
@[simp] theorem State.holds_c : s.holds .c = s.f.c := rfl

/-! ## Inversions -/

section

variable {s t : State}

theorem State.onRead_next {a : Word} {k : Byte → State} (h : s.onRead a k = .next t) :
    (s.permits a = true ∧ t = k (s.readByte a)) ∨ (s.permits a = false ∧ t = s.raise (.outOfBounds a .read)) := by
  rw [State.onRead_eq] at h
  injection h with h
  cases hp : s.permits a <;> simp [hp] at h <;> simp [h]

theorem State.onWrite_next {a : Word} {v : Byte} {k : State → State} (h : s.onWrite a v k = .next t) :
    (s.permits a = true ∧ t = k (s.writeByte a v)) ∨ (s.permits a = false ∧ t = s.raise (.outOfBounds a .write)) := by
  rw [State.onWrite_eq] at h
  injection h with h
  cases hp : s.permits a <;> simp [hp] at h <;> simp [h]

theorem State.modifyAtHl_next {op : Byte → Flags → AluResult} (h : s.modifyAtHl op = .next t) :
    (s.permits s.hl = true ∧
        t = ((s.writeByte s.hl (op (s.readByte s.hl) s.f).val).setF (op (s.readByte s.hl) s.f).flags).advance 1) ∨
      (s.permits s.hl = false ∧ t = s.raise (.outOfBounds s.hl .read)) := by
  rw [State.modifyAtHl_eq] at h
  injection h with h
  cases hp : s.permits s.hl <;> simp only [hp, if_true, Bool.false_eq_true, if_false] at h <;> subst h <;> simp

theorem execLdA16Sp_next {a : Word} (h : execLdA16Sp a s = .next t) :
    (s.permits a = true ∧ s.permits (a + 1) = true ∧
        t = ((s.writeByte a (loByte s.sp)).writeByte (a + 1) (hiByte s.sp)).advance 3) ∨
      (s.permits a = true ∧ s.permits (a + 1) = false ∧ t = s.raise (.outOfBounds (a + 1) .write)) ∨
      (s.permits a = false ∧ t = s.raise (.outOfBounds a .write)) := by
  unfold execLdA16Sp at h
  rw [State.busWrite16_eq] at h
  generalize a + 1 = b at h ⊢
  cases hp : s.permits a <;> cases hq : s.permits b <;>
    simp only [hp, hq, if_true, Bool.false_eq_true, if_false] at h <;> cases h <;> simp [State.raise]

theorem execPushRr_next {rr : StackPair} (h : execPushRr rr s = .next t) :
    (s.permits (s.sp - 1) = true ∧ s.permits (s.sp - 2) = true ∧
        t = (((s.writeByte (s.sp - 1) (hiByte (s.getStackPair rr))).writeByte (s.sp - 2)
          (loByte (s.getStackPair rr))).setSp (s.sp - 2)).advance 1) ∨
      (s.permits (s.sp - 1) = true ∧ s.permits (s.sp - 2) = false ∧ t = s.raise (.outOfBounds (s.sp - 2) .write)) ∨
      (s.permits (s.sp - 1) = false ∧ t = s.raise (.outOfBounds (s.sp - 1) .write)) := by
  unfold execPushRr at h
  rw [State.push_eq] at h
  generalize s.sp - 1 = a, s.sp - 2 = b at h ⊢
  cases hp : s.permits a <;> cases hq : s.permits b <;>
    simp only [hp, hq, if_true, Bool.false_eq_true, if_false] at h <;> cases h <;> simp [State.raise]

theorem execPopRr_next {rr : StackPair} (h : execPopRr rr s = .next t) :
    (s.permits s.sp = true ∧ s.permits (s.sp + 1) = true ∧
        t = ((s.setSp (s.sp + 2)).setStackPair rr (wordOf (s.readByte (s.sp + 1)) (s.readByte s.sp))).advance 1) ∨
      (s.permits s.sp = true ∧ s.permits (s.sp + 1) = false ∧ t = s.raise (.outOfBounds (s.sp + 1) .read)) ∨
      (s.permits s.sp = false ∧ t = s.raise (.outOfBounds s.sp .read)) := by
  unfold execPopRr at h
  rw [State.pop_eq] at h
  generalize s.sp + 1 = b at h ⊢
  cases hp : s.permits s.sp <;> cases hq : s.permits b <;>
    simp only [hp, hq, if_true, Bool.false_eq_true, if_false] at h <;> cases h <;> simp [State.raise]

theorem State.call_next {addr : Word} (h : s.call addr = .next t) :
    (s.permits (s.sp - 1) = true ∧ s.permits (s.sp - 2) = true ∧
        t = (((s.writeByte (s.sp - 1) (hiByte (s.pc + 3))).writeByte (s.sp - 2) (loByte (s.pc + 3))).setSp
          (s.sp - 2)).setPc addr) ∨
      (s.permits (s.sp - 1) = true ∧ s.permits (s.sp - 2) = false ∧ t = s.raise (.outOfBounds (s.sp - 2) .write)) ∨
      (s.permits (s.sp - 1) = false ∧ t = s.raise (.outOfBounds (s.sp - 1) .write)) := by
  rw [State.call_eq] at h
  injection h with h
  generalize s.sp - 1 = a, s.sp - 2 = b at h ⊢
  cases hp : s.permits a <;> cases hq : s.permits b <;>
    simp only [hp, hq, if_true, Bool.false_eq_true, if_false] at h <;> subst h <;> simp

theorem State.popPc_next (h : s.popPc = .next t) :
    (s.permits s.sp = true ∧ s.permits (s.sp + 1) = true ∧
        t = (s.setSp (s.sp + 2)).setPc (wordOf (s.readByte (s.sp + 1)) (s.readByte s.sp))) ∨
      (s.permits s.sp = true ∧ s.permits (s.sp + 1) = false ∧ t = s.raise (.outOfBounds (s.sp + 1) .read)) ∨
      (s.permits s.sp = false ∧ t = s.raise (.outOfBounds s.sp .read)) := by
  rw [State.popPc_eq] at h
  injection h with h
  generalize s.sp + 1 = b at h ⊢
  cases hp : s.permits s.sp <;> cases hq : s.permits b <;>
    simp only [hp, hq, if_true, Bool.false_eq_true, if_false] at h <;> subst h <;> simp

theorem execJrCcE8_next {cc : Cond} {e : Byte} (h : execJrCcE8 cc e s = .next t) :
    (s.holds cc = true ∧ t = s.setPc (relTarget (s.pc + 2) e)) ∨ (s.holds cc = false ∧ t = s.advance 2) := by
  unfold execJrCcE8 at h
  cases hc : s.holds cc <;> simp only [hc, if_true, Bool.false_eq_true, if_false] at h <;> cases h <;> simp

theorem execJpCcA16_next {cc : Cond} {addr : Word} (h : execJpCcA16 cc addr s = .next t) :
    (s.holds cc = true ∧ t = s.setPc addr) ∨ (s.holds cc = false ∧ t = s.advance 3) := by
  unfold execJpCcA16 at h
  cases hc : s.holds cc <;> simp only [hc, if_true, Bool.false_eq_true, if_false] at h <;> cases h <;> simp

theorem execCallCcA16_next {cc : Cond} {addr : Word} (h : execCallCcA16 cc addr s = .next t) :
    (s.holds cc = true ∧ s.call addr = .next t) ∨ (s.holds cc = false ∧ t = s.advance 3) := by
  unfold execCallCcA16 at h
  cases hc : s.holds cc <;> simp only [hc, if_true, Bool.false_eq_true, if_false] at h
  · cases h; simp
  · exact .inl ⟨rfl, h⟩

theorem execRetCc_next {cc : Cond} (h : execRetCc cc s = .next t) :
    (s.holds cc = true ∧ s.popPc = .next t) ∨ (s.holds cc = false ∧ t = s.advance 1) := by
  unfold execRetCc at h
  cases hc : s.holds cc <;> simp only [hc, if_true, Bool.false_eq_true, if_false] at h
  · cases h; simp
  · exact .inl ⟨rfl, h⟩

end

/-! ## Storage after an instruction -/

/-- An instruction leaves storage as it was, or as one or two bus writes leave it. -/
theorem exec_mem {s t : State} {i : Instr} (h : exec i s = .next t) :
    t.mem = s.mem ∨ (∃ x v, t.mem = (s.writeByte x v).mem) ∨
      ∃ x y v w, t.mem = ((s.writeByte x v).writeByte y w).mem := by
  cases i
  case retCc =>
    obtain ⟨-, h⟩ | ⟨-, rfl⟩ := execRetCc_next h
    · obtain ⟨-, -, rfl⟩ | ⟨-, -, rfl⟩ | ⟨-, rfl⟩ := State.popPc_next h <;> exact .inl rfl
    · exact .inl rfl
  case callCcA16 =>
    obtain ⟨-, h⟩ | ⟨-, rfl⟩ := execCallCcA16_next h
    · obtain ⟨-, -, rfl⟩ | ⟨-, -, rfl⟩ | ⟨-, rfl⟩ := State.call_next h
      · exact .inr (.inr ⟨_, _, _, _, rfl⟩)
      all_goals exact .inl rfl
    · exact .inl rfl
  case jrCcE8 => obtain ⟨-, rfl⟩ | ⟨-, rfl⟩ := execJrCcE8_next h <;> exact .inl rfl
  case jpCcA16 => obtain ⟨-, rfl⟩ | ⟨-, rfl⟩ := execJpCcA16_next h <;> exact .inl rfl
  case callA16 =>
    obtain ⟨-, -, rfl⟩ | ⟨-, -, rfl⟩ | ⟨-, rfl⟩ := State.call_next h
    · exact .inr (.inr ⟨_, _, _, _, rfl⟩)
    all_goals exact .inl rfl
  case ret => obtain ⟨-, -, rfl⟩ | ⟨-, -, rfl⟩ | ⟨-, rfl⟩ := State.popPc_next h <;> exact .inl rfl
  case pushRr =>
    obtain ⟨-, -, rfl⟩ | ⟨-, -, rfl⟩ | ⟨-, rfl⟩ := execPushRr_next h
    · exact .inr (.inr ⟨_, _, _, _, rfl⟩)
    all_goals exact .inl rfl
  case ldA16Sp =>
    obtain ⟨-, -, rfl⟩ | ⟨-, -, rfl⟩ | ⟨-, rfl⟩ := execLdA16Sp_next h
    · exact .inr (.inr ⟨_, _, _, _, rfl⟩)
    all_goals exact .inl rfl
  case popRr =>
    obtain ⟨-, -, rfl⟩ | ⟨-, -, rfl⟩ | ⟨-, rfl⟩ := execPopRr_next h <;> exact .inl (by simp)
  case incAtHl | decAtHl =>
    obtain ⟨-, rfl⟩ | ⟨-, rfl⟩ := State.modifyAtHl_next h
    · exact .inr (.inl ⟨_, _, rfl⟩)
    · exact .inl rfl
  case ldAtBcA | ldAtDeA | ldAtHlN8 | ldAtHlR8 | ldhA8A | ldAtCA | ldA16A | ldAtHlIncA | ldAtHlDecA =>
    obtain ⟨-, rfl⟩ | ⟨-, rfl⟩ := State.onWrite_next h
    · exact .inr (.inl ⟨_, _, rfl⟩)
    · exact .inl rfl
  case addAAtHl | adcAAtHl | subAAtHl | sbcAAtHl | andAAtHl | xorAAtHl | orAAtHl | cpAAtHl | ldAAtBc | ldAAtDe
      | ldhAA8 | ldAAtC | ldAA16 | ldAAtHlInc | ldAAtHlDec | ldR8AtHl =>
    obtain ⟨-, rfl⟩ | ⟨-, rfl⟩ := State.onRead_next h <;> exact .inl (by simp)
  all_goals
    cases h
    exact .inl (by simp)

/-- The end of an instruction is a next state, R140 and R141. -/
theorem State.finish_next (s : State) (r : Except OobAccess State) : ∃ t, s.finish r = .next t := by
  cases r <;> exact ⟨_, rfl⟩

/-- Every instruction answers a next state: an error is a run state. -/
theorem exec_answers (i : Instr) (s : State) : ∃ t, exec i s = .next t := by
  cases i
  case retCc cc =>
    show ∃ t, execRetCc cc s = .next t
    unfold execRetCc
    split
    · exact State.finish_next _ _
    · exact ⟨_, rfl⟩
  case callCcA16 cc a =>
    show ∃ t, execCallCcA16 cc a s = .next t
    unfold execCallCcA16
    split
    · exact State.finish_next _ _
    · exact ⟨_, rfl⟩
  case jrCcE8 cc e =>
    show ∃ t, execJrCcE8 cc e s = .next t
    unfold execJrCcE8
    split <;> exact ⟨_, rfl⟩
  case jpCcA16 cc a =>
    show ∃ t, execJpCcA16 cc a s = .next t
    unfold execJpCcA16
    split <;> exact ⟨_, rfl⟩
  all_goals first
    | exact ⟨_, rfl⟩
    | exact State.finish_next _ _

/-- Everything a step that gives a next state can have done, R27. -/
theorem step_next (h : step s = .next t) :
    s.run = .running ∧ ((∃ i, s.drawInput.fetch = .ok i ∧ exec i s.drawInput = .next t) ∨
      ∃ x, s.drawInput.fetch = .error x ∧ t = s.drawInput.raise (.outOfBounds x.addr x.kind)) := by
  unfold step at h
  cases hr : s.run <;> simp only [hr] at h
  · refine ⟨rfl, ?_⟩
    cases hf : s.drawInput.fetch <;> simp only [hf] at h
    · cases h
      exact .inr ⟨_, rfl, rfl⟩
    · exact .inl ⟨_, rfl, h⟩
  · cases h
  · cases h

end Sys2Proof.Machine
end

