-- ==== Sys2Proof/Laws/HostPort.lean ====
section
/-! SUPPORT. What the host's actions answer: loading, resetting, and what stands in storage afterwards. -/

namespace Sys2Proof.Machine

variable (s : State) (p : Params) (m : Memory) (j : JoypadState) (js : List JoypadState)

/-! ## The state after reset, field by field -/

@[simp] theorem Params.afterReset_a : (Params.afterReset p m j js).a = p.resetRegs.a := rfl
@[simp] theorem Params.afterReset_b : (Params.afterReset p m j js).b = p.resetRegs.b := rfl
@[simp] theorem Params.afterReset_c : (Params.afterReset p m j js).c = p.resetRegs.c := rfl
@[simp] theorem Params.afterReset_d : (Params.afterReset p m j js).d = p.resetRegs.d := rfl
@[simp] theorem Params.afterReset_e : (Params.afterReset p m j js).e = p.resetRegs.e := rfl
@[simp] theorem Params.afterReset_h : (Params.afterReset p m j js).h = p.resetRegs.h := rfl
@[simp] theorem Params.afterReset_l : (Params.afterReset p m j js).l = p.resetRegs.l := rfl
@[simp] theorem Params.afterReset_f : (Params.afterReset p m j js).f = flagsOfByte p.resetRegs.f := rfl
@[simp] theorem Params.afterReset_sp : (Params.afterReset p m j js).sp = p.resetRegs.sp := rfl
@[simp] theorem Params.afterReset_pc : (Params.afterReset p m j js).pc = p.resetPc := rfl
@[simp] theorem Params.afterReset_ime : (Params.afterReset p m j js).ime = false := rfl
@[simp] theorem Params.afterReset_run : (Params.afterReset p m j js).run = .running := rfl
@[simp] theorem Params.afterReset_p15 : (Params.afterReset p m j js).p15 = false := rfl
@[simp] theorem Params.afterReset_p14 : (Params.afterReset p m j js).p14 = false := rfl
@[simp] theorem Params.afterReset_mem : (Params.afterReset p m j js).mem = m := rfl
@[simp] theorem Params.afterReset_joypad : (Params.afterReset p m j js).joypad = j := rfl
@[simp] theorem Params.afterReset_inputs : (Params.afterReset p m j js).inputs = js := rfl
@[simp] theorem Params.afterReset_params : (Params.afterReset p m j js).params = p := rfl

/-! ## The storage after reset -/

theorem Params.storage_wf (rom : Nat → Byte) : Memory.wf (Params.storage p rom) := Memory.build_wf _

theorem Params.read_storage_rom (rom : Nat → Byte) {a : Nat} (h : a < 0x8000) :
    Memory.read (Params.storage p rom) a = rom a := by
  rw [Params.storage, Memory.read_build _ (isStored_of_region (regionAt_rom h) rfl), if_pos h]

theorem Params.read_storage_ram (rom : Nat → Byte) {a : Nat} (h : 0x8000 ≤ a) (hs : isStored a = true) :
    Memory.read (Params.storage p rom) a = Memory.read p.ramInit a := by
  rw [Params.storage, Memory.read_build _ hs, if_neg (Nat.not_lt.mpr h)]

/-- The storage depends on the ROM bytes only. -/
theorem Params.storage_congr {rom rom' : Nat → Byte} (h : ∀ a, a < 0x8000 → rom a = rom' a) :
    Params.storage p rom = Params.storage p rom' := by
  unfold Params.storage
  congr 1
  funext a
  split
  · next ha => exact h a ha
  · rfl

/-! ## Loading -/

theorem State.load_wf {image : List Byte} (hw : s.params.wf) (hl : image.length ≤ 0x8000) :
    s.load image =
      .ok (Params.afterReset s.params (Params.storage s.params (Params.romByte s.params image)) s.joypad s.inputs) := by
  rw [State.load, if_neg (not_not_intro hw), Config.romSize, if_neg (Nat.not_lt.mpr hl)]

theorem State.load_long {image : List Byte} (hw : s.params.wf) (hl : 0x8000 < image.length) :
    s.load image = .error .imageTooLong := by
  rw [State.load, if_neg (not_not_intro hw), Config.romSize, if_pos hl]

theorem State.load_badConfiguration (image : List Byte) (hw : ¬s.params.wf) :
    s.load image = .error .badConfiguration := by
  rw [State.load, if_pos hw]

/-- Everything a load that is not refused says. -/
theorem State.load_ok {t : State} {image : List Byte} (h : s.load image = .ok t) :
    s.params.wf ∧ image.length ≤ 0x8000 ∧
      t = Params.afterReset s.params (Params.storage s.params (Params.romByte s.params image)) s.joypad s.inputs := by
  by_cases hw : s.params.wf
  · by_cases hl : image.length ≤ 0x8000
    · rw [State.load_wf s hw hl] at h
      cases h
      exact ⟨hw, hl, rfl⟩
    · rw [State.load_long s hw (Nat.lt_of_not_le hl)] at h
      cases h
  · rw [State.load_badConfiguration s image hw] at h
    cases h

end Sys2Proof.Machine
end

