-- ==== Sys2Proof/Laws/PerInstr.lean ====
section
/-! SUPPORT. The per-instruction family `EncodeLength`: the encoding of an instruction is as long as the format of its first
byte, the opcode, says (spec/30_encoding.md R59, R60). -/

namespace Sys2Proof.Laws.EncodeLength

/-- The encoding starts with an opcode byte whose format has the encoding's length. -/
def Statement (i : Instr) : Prop :=
  i.wf = true → ∃ op rest, encode i = op :: rest ∧ (decodeOpcode op).length = (encode i).length

theorem nop : Statement .nop := fun _ => ⟨_, _, rfl, rfl⟩

theorem ldRrN16 (rr : Pair) (n : Word) : Statement (.ldRrN16 rr n) := by
  intro _
  refine ⟨_, _, rfl, ?_⟩
  cases rr <;> rfl

theorem ldAtBcA : Statement .ldAtBcA := fun _ => ⟨_, _, rfl, rfl⟩

theorem incRr (rr : Pair) : Statement (.incRr rr) := by
  intro _
  refine ⟨_, _, rfl, ?_⟩
  cases rr <;> rfl

theorem incR8 (r : R8) : Statement (.incR8 r) := by
  intro _
  refine ⟨_, _, rfl, ?_⟩
  cases r <;> rfl

theorem decR8 (r : R8) : Statement (.decR8 r) := by
  intro _
  refine ⟨_, _, rfl, ?_⟩
  cases r <;> rfl

theorem ldR8N8 (r : R8) (n : Byte) : Statement (.ldR8N8 r n) := by
  intro _
  refine ⟨_, _, rfl, ?_⟩
  cases r <;> rfl

theorem rlca : Statement .rlca := fun _ => ⟨_, _, rfl, rfl⟩

theorem ldA16Sp (addr : Word) : Statement (.ldA16Sp addr) := fun _ => ⟨_, _, rfl, rfl⟩

theorem addHlRr (rr : Pair) : Statement (.addHlRr rr) := by
  intro _
  refine ⟨_, _, rfl, ?_⟩
  cases rr <;> rfl

theorem ldAAtBc : Statement .ldAAtBc := fun _ => ⟨_, _, rfl, rfl⟩

theorem decRr (rr : Pair) : Statement (.decRr rr) := by
  intro _
  refine ⟨_, _, rfl, ?_⟩
  cases rr <;> rfl

theorem rrca : Statement .rrca := fun _ => ⟨_, _, rfl, rfl⟩

theorem stop (ignored : Byte) : Statement (.stop ignored) := fun _ => ⟨_, _, rfl, rfl⟩

theorem ldAtDeA : Statement .ldAtDeA := fun _ => ⟨_, _, rfl, rfl⟩

theorem rla : Statement .rla := fun _ => ⟨_, _, rfl, rfl⟩

theorem jrE8 (e : Byte) : Statement (.jrE8 e) := fun _ => ⟨_, _, rfl, rfl⟩

theorem ldAAtDe : Statement .ldAAtDe := fun _ => ⟨_, _, rfl, rfl⟩

theorem rra : Statement .rra := fun _ => ⟨_, _, rfl, rfl⟩

theorem jrCcE8 (cc : Cond) (e : Byte) : Statement (.jrCcE8 cc e) := by
  intro _
  refine ⟨_, _, rfl, ?_⟩
  cases cc <;> rfl

theorem ldAtHlIncA : Statement .ldAtHlIncA := fun _ => ⟨_, _, rfl, rfl⟩

theorem daa : Statement .daa := fun _ => ⟨_, _, rfl, rfl⟩

theorem ldAAtHlInc : Statement .ldAAtHlInc := fun _ => ⟨_, _, rfl, rfl⟩

theorem cpl : Statement .cpl := fun _ => ⟨_, _, rfl, rfl⟩

theorem ldAtHlDecA : Statement .ldAtHlDecA := fun _ => ⟨_, _, rfl, rfl⟩

theorem incAtHl : Statement .incAtHl := fun _ => ⟨_, _, rfl, rfl⟩

theorem decAtHl : Statement .decAtHl := fun _ => ⟨_, _, rfl, rfl⟩

theorem ldAtHlN8 (n : Byte) : Statement (.ldAtHlN8 n) := fun _ => ⟨_, _, rfl, rfl⟩

theorem scf : Statement .scf := fun _ => ⟨_, _, rfl, rfl⟩

theorem ldAAtHlDec : Statement .ldAAtHlDec := fun _ => ⟨_, _, rfl, rfl⟩

theorem ccf : Statement .ccf := fun _ => ⟨_, _, rfl, rfl⟩

theorem ldR8R8 (dst : R8) (src : R8) : Statement (.ldR8R8 dst src) := by
  intro _
  refine ⟨_, _, rfl, ?_⟩
  cases dst <;> cases src <;> rfl

theorem ldR8AtHl (dst : R8) : Statement (.ldR8AtHl dst) := by
  intro _
  refine ⟨_, _, rfl, ?_⟩
  cases dst <;> rfl

theorem ldAtHlR8 (src : R8) : Statement (.ldAtHlR8 src) := by
  intro _
  refine ⟨_, _, rfl, ?_⟩
  cases src <;> rfl

theorem halt : Statement .halt := fun _ => ⟨_, _, rfl, rfl⟩

theorem addAR8 (r : R8) : Statement (.addAR8 r) := by
  intro _
  refine ⟨_, _, rfl, ?_⟩
  cases r <;> rfl

theorem addAAtHl : Statement .addAAtHl := fun _ => ⟨_, _, rfl, rfl⟩

theorem adcAR8 (r : R8) : Statement (.adcAR8 r) := by
  intro _
  refine ⟨_, _, rfl, ?_⟩
  cases r <;> rfl

theorem adcAAtHl : Statement .adcAAtHl := fun _ => ⟨_, _, rfl, rfl⟩

theorem subAR8 (r : R8) : Statement (.subAR8 r) := by
  intro _
  refine ⟨_, _, rfl, ?_⟩
  cases r <;> rfl

theorem subAAtHl : Statement .subAAtHl := fun _ => ⟨_, _, rfl, rfl⟩

theorem sbcAR8 (r : R8) : Statement (.sbcAR8 r) := by
  intro _
  refine ⟨_, _, rfl, ?_⟩
  cases r <;> rfl

theorem sbcAAtHl : Statement .sbcAAtHl := fun _ => ⟨_, _, rfl, rfl⟩

theorem andAR8 (r : R8) : Statement (.andAR8 r) := by
  intro _
  refine ⟨_, _, rfl, ?_⟩
  cases r <;> rfl

theorem andAAtHl : Statement .andAAtHl := fun _ => ⟨_, _, rfl, rfl⟩

theorem xorAR8 (r : R8) : Statement (.xorAR8 r) := by
  intro _
  refine ⟨_, _, rfl, ?_⟩
  cases r <;> rfl

theorem xorAAtHl : Statement .xorAAtHl := fun _ => ⟨_, _, rfl, rfl⟩

theorem orAR8 (r : R8) : Statement (.orAR8 r) := by
  intro _
  refine ⟨_, _, rfl, ?_⟩
  cases r <;> rfl

theorem orAAtHl : Statement .orAAtHl := fun _ => ⟨_, _, rfl, rfl⟩

theorem cpAR8 (r : R8) : Statement (.cpAR8 r) := by
  intro _
  refine ⟨_, _, rfl, ?_⟩
  cases r <;> rfl

theorem cpAAtHl : Statement .cpAAtHl := fun _ => ⟨_, _, rfl, rfl⟩

theorem retCc (cc : Cond) : Statement (.retCc cc) := by
  intro _
  refine ⟨_, _, rfl, ?_⟩
  cases cc <;> rfl

theorem popRr (rr : StackPair) : Statement (.popRr rr) := by
  intro _
  refine ⟨_, _, rfl, ?_⟩
  cases rr <;> rfl

theorem jpCcA16 (cc : Cond) (addr : Word) : Statement (.jpCcA16 cc addr) := by
  intro _
  refine ⟨_, _, rfl, ?_⟩
  cases cc <;> rfl

theorem jpA16 (addr : Word) : Statement (.jpA16 addr) := fun _ => ⟨_, _, rfl, rfl⟩

theorem callCcA16 (cc : Cond) (addr : Word) : Statement (.callCcA16 cc addr) := by
  intro _
  refine ⟨_, _, rfl, ?_⟩
  cases cc <;> rfl

theorem pushRr (rr : StackPair) : Statement (.pushRr rr) := by
  intro _
  refine ⟨_, _, rfl, ?_⟩
  cases rr <;> rfl

theorem addAN8 (n : Byte) : Statement (.addAN8 n) := fun _ => ⟨_, _, rfl, rfl⟩

theorem ret : Statement .ret := fun _ => ⟨_, _, rfl, rfl⟩

theorem callA16 (addr : Word) : Statement (.callA16 addr) := fun _ => ⟨_, _, rfl, rfl⟩

theorem adcAN8 (n : Byte) : Statement (.adcAN8 n) := fun _ => ⟨_, _, rfl, rfl⟩

theorem subAN8 (n : Byte) : Statement (.subAN8 n) := fun _ => ⟨_, _, rfl, rfl⟩

theorem sbcAN8 (n : Byte) : Statement (.sbcAN8 n) := fun _ => ⟨_, _, rfl, rfl⟩

theorem ldhA8A (n : Byte) : Statement (.ldhA8A n) := fun _ => ⟨_, _, rfl, rfl⟩

theorem ldAtCA : Statement .ldAtCA := fun _ => ⟨_, _, rfl, rfl⟩

theorem andAN8 (n : Byte) : Statement (.andAN8 n) := fun _ => ⟨_, _, rfl, rfl⟩

theorem addSpE8 (e : Byte) : Statement (.addSpE8 e) := fun _ => ⟨_, _, rfl, rfl⟩

theorem jpHl : Statement .jpHl := fun _ => ⟨_, _, rfl, rfl⟩

theorem ldA16A (addr : Word) : Statement (.ldA16A addr) := fun _ => ⟨_, _, rfl, rfl⟩

theorem xorAN8 (n : Byte) : Statement (.xorAN8 n) := fun _ => ⟨_, _, rfl, rfl⟩

theorem ldhAA8 (n : Byte) : Statement (.ldhAA8 n) := fun _ => ⟨_, _, rfl, rfl⟩

theorem ldAAtC : Statement .ldAAtC := fun _ => ⟨_, _, rfl, rfl⟩

theorem di : Statement .di := fun _ => ⟨_, _, rfl, rfl⟩

theorem orAN8 (n : Byte) : Statement (.orAN8 n) := fun _ => ⟨_, _, rfl, rfl⟩

theorem ldHlSpE8 (e : Byte) : Statement (.ldHlSpE8 e) := fun _ => ⟨_, _, rfl, rfl⟩

theorem ldSpHl : Statement .ldSpHl := fun _ => ⟨_, _, rfl, rfl⟩

theorem ldAA16 (addr : Word) : Statement (.ldAA16 addr) := fun _ => ⟨_, _, rfl, rfl⟩

theorem cpAN8 (n : Byte) : Statement (.cpAN8 n) := fun _ => ⟨_, _, rfl, rfl⟩

theorem refusedRst00H : Statement .refusedRst00H := fun _ => ⟨_, _, rfl, rfl⟩

theorem refusedCbPrefix : Statement .refusedCbPrefix := fun _ => ⟨_, _, rfl, rfl⟩

theorem refusedRst08H : Statement .refusedRst08H := fun _ => ⟨_, _, rfl, rfl⟩

theorem refusedUnassigned (op : Byte) : Statement (.refusedUnassigned op) := by
  intro h
  refine ⟨op, [], rfl, ?_⟩
  revert op
  decide

theorem refusedRst10H : Statement .refusedRst10H := fun _ => ⟨_, _, rfl, rfl⟩

theorem refusedReti : Statement .refusedReti := fun _ => ⟨_, _, rfl, rfl⟩

theorem refusedRst18H : Statement .refusedRst18H := fun _ => ⟨_, _, rfl, rfl⟩

theorem refusedRst20H : Statement .refusedRst20H := fun _ => ⟨_, _, rfl, rfl⟩

theorem refusedRst28H : Statement .refusedRst28H := fun _ => ⟨_, _, rfl, rfl⟩

theorem refusedRst30H : Statement .refusedRst30H := fun _ => ⟨_, _, rfl, rfl⟩

theorem refusedEi : Statement .refusedEi := fun _ => ⟨_, _, rfl, rfl⟩

theorem refusedRst38H : Statement .refusedRst38H := fun _ => ⟨_, _, rfl, rfl⟩

end Sys2Proof.Laws.EncodeLength
end

