-- ==== Sys2Proof/Machine/Asm.lean ====
section
/-! DEFINITION. The assembler text of an instruction and its alternative spellings (spec/30_encoding.md R69 and R70), and
the displacement a label assembles to. No meaning reads this file. -/

namespace Sys2Proof

/-- One hexadecimal digit. -/
def hexDigit (n : Nat) : String :=
  match n with
  | 0 => "0"
  | 1 => "1"
  | 2 => "2"
  | 3 => "3"
  | 4 => "4"
  | 5 => "5"
  | 6 => "6"
  | 7 => "7"
  | 8 => "8"
  | 9 => "9"
  | 10 => "A"
  | 11 => "B"
  | 12 => "C"
  | 13 => "D"
  | 14 => "E"
  | _ => "F"

/-- A byte as two hexadecimal digits. -/
def hexByte (v : Byte) : String := hexDigit (v.toNat / 16) ++ hexDigit (v.toNat % 16)

/-- A number operand of one byte, R69. -/
def asmByte (v : Byte) : String := "0x" ++ hexByte v

/-- A number operand of two bytes, R69. -/
def asmWord (v : Word) : String := "0x" ++ hexByte (hiByte v) ++ hexByte (loByte v)

/-- One decimal digit. -/
def asmDigit (n : Nat) : String := hexDigit (n % 10)

/-- A number of 0 to 255 in decimal. -/
def asmDecimal (n : Nat) : String :=
  if n < 10 then asmDigit n
  else if n < 100 then asmDigit (n / 10) ++ asmDigit n
  else asmDigit (n / 100) ++ asmDigit (n / 10) ++ asmDigit n

/-- A signed displacement in decimal, with `plus` before a number that is not negative (DESIGN CHOICE, log entry 23). -/
def asmSigned (plus : String) (e : Byte) : String :=
  if e.toNat < 128 then plus ++ asmDecimal e.toNat else "-" ++ asmDecimal (256 - e.toNat)

/-- The text of a register. -/
def R8.asm : R8 → String
  | .b => "B"
  | .c => "C"
  | .d => "D"
  | .e => "E"
  | .h => "H"
  | .l => "L"
  | .a => "A"

/-- The text of a group-1 pair. -/
def Pair.asm : Pair → String
  | .bc => "BC"
  | .de => "DE"
  | .hl => "HL"
  | .sp => "SP"

/-- The text of a group-2 pair. -/
def StackPair.asm : StackPair → String
  | .bc => "BC"
  | .de => "DE"
  | .hl => "HL"
  | .af => "AF"

/-- The text of a condition. -/
def Cond.asm : Cond → String
  | .nz => "NZ"
  | .z => "Z"
  | .nc => "NC"
  | .c => "C"

/-- The eight ALU operations take A explicitly or implicitly, R69. -/
def asmAlu (op operand : String) : List String := [op ++ " A," ++ operand, op ++ " " ++ operand]

/-- The spellings of an instruction, the one of R69 first, then the alternatives of R69 and R70 (square brackets for
parentheses apart). DESIGN CHOICE, log entry 24: `LD (0xFF00+n),A` for LDH (n),A (0xE0) is added by the model, safe; R70
lists `LD A,(0xFF00+n)` for 0xF0 only and says nothing of 0xE0. A refused opcode has none, and neither has STOP with a second byte other than the 0x00 that `STOP`
assembles to. -/
def Instr.spellings : Instr → List String
  | .nop => ["NOP"]
  | .ldRrN16 rr n => ["LD " ++ rr.asm ++ "," ++ asmWord n]
  | .ldAtBcA => ["LD (BC),A"]
  | .incRr rr => ["INC " ++ rr.asm]
  | .incR8 r => ["INC " ++ r.asm]
  | .decR8 r => ["DEC " ++ r.asm]
  | .ldR8N8 r n => ["LD " ++ r.asm ++ "," ++ asmByte n]
  | .rlca => ["RLCA"]
  | .ldA16Sp addr => ["LD (" ++ asmWord addr ++ "),SP"]
  | .addHlRr rr => ["ADD HL," ++ rr.asm]
  | .ldAAtBc => ["LD A,(BC)"]
  | .decRr rr => ["DEC " ++ rr.asm]
  | .rrca => ["RRCA"]
  | .stop ignored => if ignored = 0 then ["STOP"] else []
  | .ldAtDeA => ["LD (DE),A"]
  | .rla => ["RLA"]
  | .jrE8 e => ["JR " ++ asmSigned "" e]
  | .ldAAtDe => ["LD A,(DE)"]
  | .rra => ["RRA"]
  | .jrCcE8 cc e => ["JR " ++ cc.asm ++ "," ++ asmSigned "" e]
  | .ldAtHlIncA => ["LD (HL+),A", "LDI (HL),A", "LD (HLI),A"]
  | .daa => ["DAA"]
  | .ldAAtHlInc => ["LD A,(HL+)", "LDI A,(HL)", "LD A,(HLI)"]
  | .cpl => ["CPL"]
  | .ldAtHlDecA => ["LD (HL-),A", "LDD (HL),A", "LD (HLD),A"]
  | .incAtHl => ["INC (HL)"]
  | .decAtHl => ["DEC (HL)"]
  | .ldAtHlN8 n => ["LD (HL)," ++ asmByte n]
  | .scf => ["SCF"]
  | .ldAAtHlDec => ["LD A,(HL-)", "LDD A,(HL)", "LD A,(HLD)"]
  | .ccf => ["CCF"]
  | .ldR8R8 dst src => ["LD " ++ dst.asm ++ "," ++ src.asm]
  | .ldR8AtHl dst => ["LD " ++ dst.asm ++ ",(HL)"]
  | .ldAtHlR8 src => ["LD (HL)," ++ src.asm]
  | .halt => ["HALT"]
  | .addAR8 r => asmAlu "ADD" r.asm
  | .addAAtHl => asmAlu "ADD" "(HL)"
  | .adcAR8 r => asmAlu "ADC" r.asm
  | .adcAAtHl => asmAlu "ADC" "(HL)"
  | .subAR8 r => asmAlu "SUB" r.asm
  | .subAAtHl => asmAlu "SUB" "(HL)"
  | .sbcAR8 r => asmAlu "SBC" r.asm
  | .sbcAAtHl => asmAlu "SBC" "(HL)"
  | .andAR8 r => asmAlu "AND" r.asm
  | .andAAtHl => asmAlu "AND" "(HL)"
  | .xorAR8 r => asmAlu "XOR" r.asm
  | .xorAAtHl => asmAlu "XOR" "(HL)"
  | .orAR8 r => asmAlu "OR" r.asm
  | .orAAtHl => asmAlu "OR" "(HL)"
  | .cpAR8 r => asmAlu "CP" r.asm
  | .cpAAtHl => asmAlu "CP" "(HL)"
  | .retCc cc => ["RET " ++ cc.asm]
  | .popRr rr => ["POP " ++ rr.asm]
  | .jpCcA16 cc addr => ["JP " ++ cc.asm ++ "," ++ asmWord addr]
  | .jpA16 addr => ["JP " ++ asmWord addr]
  | .callCcA16 cc addr => ["CALL " ++ cc.asm ++ "," ++ asmWord addr]
  | .pushRr rr => ["PUSH " ++ rr.asm]
  | .addAN8 n => asmAlu "ADD" (asmByte n)
  | .ret => ["RET"]
  | .callA16 addr => ["CALL " ++ asmWord addr]
  | .adcAN8 n => asmAlu "ADC" (asmByte n)
  | .subAN8 n => asmAlu "SUB" (asmByte n)
  | .sbcAN8 n => asmAlu "SBC" (asmByte n)
  | .ldhA8A n => ["LDH (" ++ asmByte n ++ "),A", "LD (0xFF00+" ++ asmByte n ++ "),A"]
  | .ldAtCA => ["LD (C),A", "LD (0xFF00+C),A", "LDH (C),A"]
  | .andAN8 n => asmAlu "AND" (asmByte n)
  | .addSpE8 e => ["ADD SP," ++ asmSigned "" e]
  | .jpHl => ["JP HL", "JP (HL)"]
  | .ldA16A addr => ["LD (" ++ asmWord addr ++ "),A"]
  | .xorAN8 n => asmAlu "XOR" (asmByte n)
  | .ldhAA8 n => ["LDH A,(" ++ asmByte n ++ ")", "LD A,(0xFF00+" ++ asmByte n ++ ")"]
  | .ldAAtC => ["LD A,(C)", "LD A,(0xFF00+C)", "LDH A,(C)"]
  | .di => ["DI"]
  | .orAN8 n => asmAlu "OR" (asmByte n)
  | .ldHlSpE8 e => ["LD HL,SP" ++ asmSigned "+" e, "LDHL SP," ++ asmSigned "" e]
  | .ldSpHl => ["LD SP,HL"]
  | .ldAA16 addr => ["LD A,(" ++ asmWord addr ++ ")"]
  | .cpAN8 n => asmAlu "CP" (asmByte n)
  | .refusedRst00H | .refusedCbPrefix | .refusedRst08H | .refusedUnassigned _ | .refusedRst10H | .refusedReti
  | .refusedRst18H | .refusedRst20H | .refusedRst28H | .refusedRst30H | .refusedEi | .refusedRst38H => []

/-- The displacement with which a JR at `pc` reaches `target`, R69 and R124; `none` where none does. -/
def branchDisplacement (pc target : Word) : Option Byte :=
  let d := target - (pc + 2)
  if sext (loByte d) = d then some (loByte d) else none

end Sys2Proof
end

