-- ==== Sys2Proof/Machine/Timing.lean ====
section
/-! DEFINITION. The informational table of spec/70_reset_and_hazards.md R167: how many machine cycles the DMG takes for
each admitted form. CORE models no time (R166), so no meaning and no step reads this file. -/

namespace Sys2Proof

/-- The machine cycles of an instruction, R167; `taken` says whether its condition holds, for the forms that have one.
A refused opcode has no duration. -/
def Instr.machineCycles (taken : Bool) : Instr → Option Nat
  | .nop | .halt | .stop _ | .di | .ldR8R8 _ _ | .incR8 _ | .decR8 _ => some 1
  | .addAR8 _ | .adcAR8 _ | .subAR8 _ | .sbcAR8 _ | .andAR8 _ | .xorAR8 _ | .orAR8 _ | .cpAR8 _ => some 1
  | .rlca | .rrca | .rla | .rra | .daa | .cpl | .scf | .ccf | .jpHl => some 1
  | .ldR8N8 _ _ | .ldR8AtHl _ | .ldAtHlR8 _ | .ldAAtBc | .ldAAtDe | .ldAtBcA | .ldAtDeA => some 2
  | .ldAAtHlInc | .ldAAtHlDec | .ldAtHlIncA | .ldAtHlDecA | .ldAtCA | .ldAAtC | .ldSpHl => some 2
  | .incRr _ | .decRr _ | .addHlRr _ => some 2
  | .addAAtHl | .adcAAtHl | .subAAtHl | .sbcAAtHl | .andAAtHl | .xorAAtHl | .orAAtHl | .cpAAtHl => some 2
  | .addAN8 _ | .adcAN8 _ | .subAN8 _ | .sbcAN8 _ | .andAN8 _ | .xorAN8 _ | .orAN8 _ | .cpAN8 _ => some 2
  | .ldAtHlN8 _ | .ldRrN16 _ _ | .ldhA8A _ | .ldhAA8 _ | .ldHlSpE8 _ | .popRr _ | .incAtHl | .decAtHl => some 3
  | .jrE8 _ => some 3
  | .ldA16A _ | .ldAA16 _ | .pushRr _ | .addSpE8 _ | .jpA16 _ | .ret => some 4
  | .ldA16Sp _ => some 5
  | .callA16 _ => some 6
  | .jrCcE8 _ _ => some (if taken then 3 else 2)
  | .jpCcA16 _ _ => some (if taken then 4 else 3)
  | .callCcA16 _ _ => some (if taken then 6 else 3)
  | .retCc _ => some (if taken then 5 else 2)
  | .refusedRst00H | .refusedCbPrefix | .refusedRst08H | .refusedUnassigned _ | .refusedRst10H | .refusedReti
  | .refusedRst18H | .refusedRst20H | .refusedRst28H | .refusedRst30H | .refusedEi | .refusedRst38H => none

end Sys2Proof
end

