-- ==== Sys2Proof/Tests/Slice0.lean ====
section
/-! SUPPORT. The model's own tests: well-formedness, decoding of words written out from spec/30_encoding.md and the
instruction rules, single steps with the results of spec/95_test_vectors.md, and a witness for the hypotheses of every
statement that has some. -/

namespace Sys2Proof.Tests

open Sys2Proof.Machine

/-! ## Builders -/

/-- The CPU the vectors of spec/95_test_vectors.md start from: pc 0x0150, registers and flags 0, SP 0xFFFE. -/
def blank : State :=
  ((((State.reset.setHl 0).setBc 0).setDe 0).setAf 0).setPc 0x0150

/-- The blank CPU with an instruction's bytes at its pc. -/
def holding (bytes : List Byte) : State := blank.placeBytes bytes

/-- A byte of memory set before the step, ROM included. -/
def cell (s : State) (a : Word) (v : Byte) : State := s.place a v

/-- The same CPU under the other policy of R44. -/
def faulting (s : State) : State := { s with params := { Params.decided with oobPolicy := .fault } }

/-- What a field of the next state is, where the step gives one. -/
def after (s : State) (f : State → α) : Option α :=
  match step s with
  | .next t => some (f t)
  | .fault _ => none
  | .refused _ => none

/-- F as the byte it reads as. -/
def flags (s : State) : Byte := s.f.toByte

/-- No button, and then some. -/
def pressed (right left up down start select a b : Bool) : JoypadState :=
  { right := right, left := left, up := up, down := down, start := start, select := select, a := a, b := b }

/-! ## Well-formedness -/

theorem test_wf_refuses_other_opcode : Instr.wf (.refusedUnassigned 0x00) = false := by decide

theorem test_wf_refuses_prefix_opcode : Instr.wf (.refusedUnassigned 0xCB) = false := by decide

theorem test_wf_unassigned : ∀ op ∈ unassignedOpcodes, Instr.wf (.refusedUnassigned op) = true := by decide

/-! ## Decoding -/

/-- Words of R64 and the rules of the family: misc and 16-bit (block 0). -/
def words_misc : List (List Byte × Instr) :=
  [([0x00], .nop), ([0x01, 0x34, 0x12], .ldRrN16 .bc 0x1234), ([0x11, 0x10, 0x80], .ldRrN16 .de 0x8010),
   ([0x21, 0x10, 0x80], .ldRrN16 .hl 0x8010), ([0x31, 0xFE, 0xFF], .ldRrN16 .sp 0xFFFE), ([0x02], .ldAtBcA),
   ([0x12], .ldAtDeA), ([0x22], .ldAtHlIncA), ([0x32], .ldAtHlDecA), ([0x0A], .ldAAtBc), ([0x1A], .ldAAtDe),
   ([0x2A], .ldAAtHlInc), ([0x3A], .ldAAtHlDec), ([0x08, 0x00, 0xC1], .ldA16Sp 0xC100),
   ([0x10, 0xFF], .stop 0xFF), ([0x18, 0xFC], .jrE8 0xFC), ([0x20, 0xFD], .jrCcE8 .nz 0xFD),
   ([0x28, 0x01], .jrCcE8 .z 0x01), ([0x30, 0x02], .jrCcE8 .nc 0x02), ([0x38, 0x7F], .jrCcE8 .c 0x7F)]

theorem test_decode_misc : ∀ x ∈ words_misc, decodeInstr x.1 = some x.2 := by decide

theorem test_encode_misc : ∀ x ∈ words_misc, encode x.2 = x.1 := by decide

/-- Words of R64 and the rules of the family: inc_dec. -/
def words_inc_dec : List (List Byte × Instr) :=
  [([0x03], .incRr .bc), ([0x13], .incRr .de), ([0x23], .incRr .hl), ([0x33], .incRr .sp), ([0x0B], .decRr .bc),
   ([0x3B], .decRr .sp), ([0x04], .incR8 .b), ([0x0C], .incR8 .c), ([0x14], .incR8 .d), ([0x1C], .incR8 .e),
   ([0x24], .incR8 .h), ([0x2C], .incR8 .l), ([0x3C], .incR8 .a), ([0x05], .decR8 .b), ([0x3D], .decR8 .a),
   ([0x34], .incAtHl), ([0x35], .decAtHl)]

theorem test_decode_inc_dec : ∀ x ∈ words_inc_dec, decodeInstr x.1 = some x.2 := by decide

theorem test_encode_inc_dec : ∀ x ∈ words_inc_dec, encode x.2 = x.1 := by decide

/-- Words of R64 and the rules of the family: flags, rotates and 16-bit adds. -/
def words_flags_rotates : List (List Byte × Instr) :=
  [([0x07], .rlca), ([0x0F], .rrca), ([0x17], .rla), ([0x1F], .rra), ([0x27], .daa), ([0x2F], .cpl),
   ([0x37], .scf), ([0x3F], .ccf), ([0x09], .addHlRr .bc), ([0x39], .addHlRr .sp), ([0xE8, 0x02], .addSpE8 0x02)]

theorem test_decode_flags_rotates : ∀ x ∈ words_flags_rotates, decodeInstr x.1 = some x.2 := by decide

theorem test_encode_flags_rotates : ∀ x ∈ words_flags_rotates, encode x.2 = x.1 := by decide

/-- Words of R64 and the rules of the family: ALU. -/
def words_alu : List (List Byte × Instr) :=
  [([0x80], .addAR8 .b), ([0x86], .addAAtHl), ([0xC6, 0x01], .addAN8 0x01), ([0x8B], .adcAR8 .e),
   ([0x8E], .adcAAtHl), ([0xCE, 0x3B], .adcAN8 0x3B), ([0x93], .subAR8 .e), ([0x96], .subAAtHl),
   ([0xD6, 0x0F], .subAN8 0x0F), ([0x9C], .sbcAR8 .h), ([0x9E], .sbcAAtHl), ([0xDE, 0xFF], .sbcAN8 0xFF),
   ([0xA5], .andAR8 .l), ([0xA6], .andAAtHl), ([0xE6, 0x00], .andAN8 0x00), ([0xAF], .xorAR8 .a),
   ([0xAE], .xorAAtHl), ([0xEE, 0x0F], .xorAN8 0x0F), ([0xB1], .orAR8 .c), ([0xB6], .orAAtHl),
   ([0xF6, 0x03], .orAN8 0x03), ([0xBA], .cpAR8 .d), ([0xBE], .cpAAtHl), ([0xFE, 0x40], .cpAN8 0x40)]

theorem test_decode_alu : ∀ x ∈ words_alu, decodeInstr x.1 = some x.2 := by decide

theorem test_encode_alu : ∀ x ∈ words_alu, encode x.2 = x.1 := by decide

/-- Words of R64 and the rules of the family: loads. -/
def words_loads : List (List Byte × Instr) :=
  [([0x41], .ldR8R8 .b .c), ([0x7F], .ldR8R8 .a .a), ([0x6A], .ldR8R8 .l .d), ([0x66], .ldR8AtHl .h),
   ([0x7E], .ldR8AtHl .a), ([0x70], .ldAtHlR8 .b), ([0x77], .ldAtHlR8 .a), ([0x1E, 0xA5], .ldR8N8 .e 0xA5),
   ([0x3E, 0x00], .ldR8N8 .a 0x00), ([0x36, 0x42], .ldAtHlN8 0x42), ([0xE0, 0x80], .ldhA8A 0x80),
   ([0xF0, 0x00], .ldhAA8 0x00), ([0xE2], .ldAtCA), ([0xF2], .ldAAtC), ([0xEA, 0x00, 0x98], .ldA16A 0x9800),
   ([0xFA, 0x00, 0xC0], .ldAA16 0xC000), ([0xF9], .ldSpHl), ([0xF8, 0x02], .ldHlSpE8 0x02), ([0xC5], .pushRr .bc),
   ([0xF5], .pushRr .af), ([0xD1], .popRr .de), ([0xF1], .popRr .af)]

theorem test_decode_loads : ∀ x ∈ words_loads, decodeInstr x.1 = some x.2 := by decide

theorem test_encode_loads : ∀ x ∈ words_loads, encode x.2 = x.1 := by decide

/-- Words of R64 and the rules of the family: control. -/
def words_control : List (List Byte × Instr) :=
  [([0xC3, 0x50, 0x01], .jpA16 0x0150), ([0xC2, 0x00, 0x02], .jpCcA16 .nz 0x0200),
   ([0xCA, 0x00, 0x02], .jpCcA16 .z 0x0200), ([0xD2, 0x34, 0x12], .jpCcA16 .nc 0x1234),
   ([0xDA, 0x00, 0x02], .jpCcA16 .c 0x0200), ([0xE9], .jpHl), ([0xCD, 0x08, 0x01], .callA16 0x0108),
   ([0xC4, 0x00, 0x02], .callCcA16 .nz 0x0200), ([0xDC, 0x00, 0x02], .callCcA16 .c 0x0200), ([0xC9], .ret),
   ([0xC0], .retCc .nz), ([0xC8], .retCc .z), ([0xD0], .retCc .nc), ([0xD8], .retCc .c)]

theorem test_decode_control : ∀ x ∈ words_control, decodeInstr x.1 = some x.2 := by decide

theorem test_encode_control : ∀ x ∈ words_control, encode x.2 = x.1 := by decide

/-- Words of R64 and the rules of the family: system. -/
def words_system : List (List Byte × Instr) :=
  [([0x76], .halt), ([0xF3], .di), ([0xCB], .refusedCbPrefix), ([0xC7], .refusedRst00H), ([0xCF], .refusedRst08H),
   ([0xD7], .refusedRst10H), ([0xDF], .refusedRst18H), ([0xE7], .refusedRst20H), ([0xEF], .refusedRst28H),
   ([0xF7], .refusedRst30H), ([0xFF], .refusedRst38H), ([0xD9], .refusedReti), ([0xFB], .refusedEi),
   ([0xD3], .refusedUnassigned 0xD3), ([0xDB], .refusedUnassigned 0xDB), ([0xDD], .refusedUnassigned 0xDD),
   ([0xE3], .refusedUnassigned 0xE3), ([0xE4], .refusedUnassigned 0xE4), ([0xEB], .refusedUnassigned 0xEB),
   ([0xEC], .refusedUnassigned 0xEC), ([0xED], .refusedUnassigned 0xED), ([0xF4], .refusedUnassigned 0xF4),
   ([0xFC], .refusedUnassigned 0xFC), ([0xFD], .refusedUnassigned 0xFD)]

theorem test_decode_system : ∀ x ∈ words_system, decodeInstr x.1 = some x.2 := by decide

theorem test_encode_system : ∀ x ∈ words_system, encode x.2 = x.1 := by decide

/-- The table's word, first byte lowest: `LD HL,0x8010` is bytes 21 10 80. -/
theorem test_table_word : decodeTableWord 24 0x801021 = some (.ldRrN16 .hl 0x8010) := by decide

/-- Operand bits the table does not give are 0. -/
theorem test_table_word_short : decodeTableWord 8 0xC3 = some (.jpA16 0x0000) := by decide

theorem test_truncated : decodeInstr [0xC3, 0x50] = none ∧ decodeInstr [] = none := by decide

/-! ## Steps, with the results of spec/95_test_vectors.md -/

/-- IN1, R73: INC B. -/
theorem test_in1 :
    after (((holding [0x04]).setR8 .b 0xFF).setF (flagsOfByte 0x10))
        (fun t => (t.b, flags t, t.pc)) =
      some (0x00, 0xB0, 0x0151) := by decide

/-- IN4, R73: INC C. -/
theorem test_in4 :
    after (((holding [0x0C]).setR8 .c 0x00).setF (flagsOfByte 0xF0))
        (fun t => (t.c, flags t, t.pc)) =
      some (0x01, 0x10, 0x0151) := by decide

/-- IN7, R74: DEC E. -/
theorem test_in7 :
    after (((holding [0x1D]).setR8 .e 0x10).setF (flagsOfByte 0x10))
        (fun t => (t.e, flags t, t.pc)) =
      some (0x0F, 0x70, 0x0151) := by decide

/-- IN8, R74: DEC H. -/
theorem test_in8 :
    after ((holding [0x25]).setR8 .h 0x80)
        (fun t => (t.h, flags t, t.pc)) =
      some (0x7F, 0x60, 0x0151) := by decide

/-- IN9, R75: INC (HL). -/
theorem test_in9 :
    after (cell (((holding [0x34]).setR8 .h 0xC0).setR8 .l 0x00) 0xC000 0xFF)
        (fun t => (flags t, t.readByte 0xC000, t.pc)) =
      some (0xA0, 0x00, 0x0151) := by decide

/-- IN10, R75: INC (HL), HL in ROM. -/
theorem test_in10 :
    after (((holding [0x34]).setR8 .h 0x01).setR8 .l 0x50)
        (fun t => (flags t, t.readByte 0x0150, t.pc)) =
      some (0x00, 0x34, 0x0151) := by decide

/-- IN11, R76: DEC (HL), HL out-of-bounds (Sentinel). -/
theorem test_in11 :
    after (((holding [0x35]).setR8 .h 0xA0).setR8 .l 0x00)
        (fun t => (flags t, t.pc)) =
      some (0x40, 0x0151) := by decide

/-- IN12, R76: DEC (HL). -/
theorem test_in12 :
    after (cell (((holding [0x35]).setR8 .h 0xFF).setR8 .l 0x80) 0xFF80 0x00)
        (fun t => (flags t, t.readByte 0xFF80, t.pc)) =
      some (0x60, 0xFF, 0x0151) := by decide

/-- IN13, R77: INC BC. -/
theorem test_in13 :
    after ((((holding [0x03]).setR8 .b 0xFF).setR8 .c 0xFF).setF (flagsOfByte 0xA0))
        (fun t => (t.bc, flags t, t.pc)) =
      some (0x0000, 0xA0, 0x0151) := by decide

/-- IN14, R77: INC SP. -/
theorem test_in14 :
    after ((holding [0x33]).setSp 0xFFFF)
        (fun t => (t.sp, t.pc)) =
      some (0x0000, 0x0151) := by decide

/-- IN15, R78: DEC DE. -/
theorem test_in15 :
    after (((holding [0x1B]).setR8 .d 0x00).setR8 .e 0x00)
        (fun t => (t.de, flags t, t.pc)) =
      some (0xFFFF, 0x00, 0x0151) := by decide

/-- IN16, R78: DEC HL. -/
theorem test_in16 :
    after (((holding [0x2B]).setR8 .h 0x01).setR8 .l 0x00)
        (fun t => (t.hl, t.pc)) =
      some (0x00FF, 0x0151) := by decide

/-- AL1, R81: ADD A,B. -/
theorem test_al1 :
    after (((holding [0x80]).setR8 .a 0x3A).setR8 .b 0xC6)
        (fun t => (t.a, flags t, t.pc)) =
      some (0x00, 0xB0, 0x0151) := by decide

/-- AL3, R81: ADD A,A. -/
theorem test_al3 :
    after ((holding [0x87]).setR8 .a 0x80)
        (fun t => (t.a, flags t, t.pc)) =
      some (0x00, 0x90, 0x0151) := by decide

/-- AL4, R81: ADD A,(HL). -/
theorem test_al4 :
    after (cell ((((holding [0x86]).setR8 .a 0x3C).setR8 .h 0xC0).setR8 .l 0x10) 0xC010 0x12)
        (fun t => (t.a, flags t, t.pc)) =
      some (0x4E, 0x00, 0x0151) := by decide

/-- AL2, R81: ADD A,n. -/
theorem test_al2 :
    after ((holding [0xC6, 0x01]).setR8 .a 0x0F)
        (fun t => (t.a, flags t, t.pc)) =
      some (0x10, 0x20, 0x0152) := by decide

/-- AL5, R82: ADC A,E. -/
theorem test_al5 :
    after ((((holding [0x8B]).setR8 .a 0xE1).setR8 .e 0x0F).setF (flagsOfByte 0x10))
        (fun t => (t.a, flags t, t.pc)) =
      some (0xF1, 0x20, 0x0151) := by decide

/-- AL7, R82: ADC A,n. -/
theorem test_al7 :
    after (((holding [0xCE, 0x3B]).setR8 .a 0xE1).setF (flagsOfByte 0x10))
        (fun t => (t.a, flags t, t.pc)) =
      some (0x1D, 0x10, 0x0152) := by decide

/-- AL8, R83: SUB A,E. -/
theorem test_al8 :
    after (((holding [0x93]).setR8 .a 0x3E).setR8 .e 0x3E)
        (fun t => (t.a, flags t, t.pc)) =
      some (0x00, 0xC0, 0x0151) := by decide

/-- AL11, R83: SUB A,A. -/
theorem test_al11 :
    after (((holding [0x97]).setR8 .a 0x55).setF (flagsOfByte 0x30))
        (fun t => (t.a, flags t, t.pc)) =
      some (0x00, 0xC0, 0x0151) := by decide

/-- AL9, R83: SUB A,n. -/
theorem test_al9 :
    after ((holding [0xD6, 0x0F]).setR8 .a 0x3E)
        (fun t => (t.a, flags t, t.pc)) =
      some (0x2F, 0x60, 0x0152) := by decide

/-- AL12, R84: SBC A,H. -/
theorem test_al12 :
    after ((((holding [0x9C]).setR8 .a 0x3B).setR8 .h 0x2A).setF (flagsOfByte 0x10))
        (fun t => (t.a, flags t, t.pc)) =
      some (0x10, 0x40, 0x0151) := by decide

/-- AL13, R84: SBC A,n. -/
theorem test_al13 :
    after (((holding [0xDE, 0x3A]).setR8 .a 0x3B).setF (flagsOfByte 0x10))
        (fun t => (t.a, flags t, t.pc)) =
      some (0x00, 0xC0, 0x0152) := by decide

/-- AL15, R84: SBC A,n. -/
theorem test_al15 :
    after (((holding [0xDE, 0xFF]).setR8 .a 0x00).setF (flagsOfByte 0x10))
        (fun t => (t.a, flags t, t.pc)) =
      some (0x00, 0xF0, 0x0152) := by decide

/-- AL16, R85: AND A,L. -/
theorem test_al16 :
    after (((holding [0xA5]).setR8 .a 0x5A).setR8 .l 0x3F)
        (fun t => (t.a, flags t, t.pc)) =
      some (0x1A, 0x20, 0x0151) := by decide

/-- AL17, R85: AND A,n. -/
theorem test_al17 :
    after (((holding [0xE6, 0x00]).setR8 .a 0x5A).setF (flagsOfByte 0x10))
        (fun t => (t.a, flags t, t.pc)) =
      some (0x00, 0xA0, 0x0152) := by decide

/-- AL18, R86: XOR A,A. -/
theorem test_al18 :
    after (((holding [0xAF]).setR8 .a 0xFF).setF (flagsOfByte 0x70))
        (fun t => (t.a, flags t, t.pc)) =
      some (0x00, 0x80, 0x0151) := by decide

/-- AL19, R86: XOR A,n. -/
theorem test_al19 :
    after ((holding [0xEE, 0x0F]).setR8 .a 0xFF)
        (fun t => (t.a, flags t, t.pc)) =
      some (0xF0, 0x00, 0x0152) := by decide

/-- AL21, R87: OR A,B. -/
theorem test_al21 :
    after ((((holding [0xB0]).setR8 .a 0x00).setR8 .b 0x00).setF (flagsOfByte 0x70))
        (fun t => (t.a, flags t, t.pc)) =
      some (0x00, 0x80, 0x0151) := by decide

/-- AL20, R87: OR A,n. -/
theorem test_al20 :
    after ((holding [0xF6, 0x03]).setR8 .a 0x5A)
        (fun t => (t.a, flags t, t.pc)) =
      some (0x5B, 0x00, 0x0152) := by decide

/-- AL22, R88: CP A,B. -/
theorem test_al22 :
    after (((holding [0xB8]).setR8 .a 0x3C).setR8 .b 0x2F)
        (fun t => (t.a, flags t, t.pc)) =
      some (0x3C, 0x60, 0x0151) := by decide

/-- AL23, R88: CP A,n. -/
theorem test_al23 :
    after ((holding [0xFE, 0x3C]).setR8 .a 0x3C)
        (fun t => (t.a, flags t, t.pc)) =
      some (0x3C, 0xC0, 0x0152) := by decide

/-- AL24, R88: CP A,n. -/
theorem test_al24 :
    after ((holding [0xFE, 0x40]).setR8 .a 0x3C)
        (fun t => (t.a, flags t, t.pc)) =
      some (0x3C, 0x50, 0x0152) := by decide

/-- AL26, R89: DAA after 99+01. -/
theorem test_al26 :
    after (((holding [0x27]).setR8 .a 0x9A).setF (flagsOfByte 0x00))
        (fun t => (t.a, flags t, t.pc)) =
      some (0x00, 0x90, 0x0151) := by decide

/-- AL27, R89: DAA after 83-38. -/
theorem test_al27 :
    after (((holding [0x27]).setR8 .a 0x4B).setF (flagsOfByte 0x60))
        (fun t => (t.a, flags t, t.pc)) =
      some (0x45, 0x40, 0x0151) := by decide

/-- AL29, R90: CPL. -/
theorem test_al29 :
    after (((holding [0x2F]).setR8 .a 0x35).setF (flagsOfByte 0x90))
        (fun t => (t.a, flags t, t.pc)) =
      some (0xCA, 0xF0, 0x0151) := by decide

/-- AL30, R91: SCF. -/
theorem test_al30 :
    after ((holding [0x37]).setF (flagsOfByte 0xE0))
        (fun t => (flags t, t.pc)) =
      some (0x90, 0x0151) := by decide

/-- AL31, R92: CCF. -/
theorem test_al31 :
    after ((holding [0x3F]).setF (flagsOfByte 0x70))
        (fun t => (flags t, t.pc)) =
      some (0x00, 0x0151) := by decide

/-- AL32, R92: CCF. -/
theorem test_al32 :
    after ((holding [0x3F]).setF (flagsOfByte 0x80))
        (fun t => (flags t, t.pc)) =
      some (0x90, 0x0151) := by decide

/-- AL33, R93: RLCA. -/
theorem test_al33 :
    after (((holding [0x07]).setR8 .a 0x85).setF (flagsOfByte 0x80))
        (fun t => (t.a, flags t, t.pc)) =
      some (0x0B, 0x10, 0x0151) := by decide

/-- AL34, R94: RRCA. -/
theorem test_al34 :
    after ((holding [0x0F]).setR8 .a 0x3B)
        (fun t => (t.a, flags t, t.pc)) =
      some (0x9D, 0x10, 0x0151) := by decide

/-- AL35, R95: RLA. -/
theorem test_al35 :
    after (((holding [0x17]).setR8 .a 0x95).setF (flagsOfByte 0x10))
        (fun t => (t.a, flags t, t.pc)) =
      some (0x2B, 0x10, 0x0151) := by decide

/-- AL37, R95: RLA. -/
theorem test_al37 :
    after (((holding [0x17]).setR8 .a 0x00).setF (flagsOfByte 0x00))
        (fun t => (t.a, flags t, t.pc)) =
      some (0x00, 0x00, 0x0151) := by decide

/-- AL36, R96: RRA. -/
theorem test_al36 :
    after ((holding [0x1F]).setR8 .a 0x81)
        (fun t => (t.a, flags t, t.pc)) =
      some (0x40, 0x10, 0x0151) := by decide

/-- AL38, R97: ADD HL,BC. -/
theorem test_al38 :
    after ((((((holding [0x09]).setR8 .h 0x8A).setR8 .l 0x23).setR8 .b 0x06).setR8 .c 0x05).setF (flagsOfByte 0x80))
        (fun t => (t.hl, flags t, t.pc)) =
      some (0x9028, 0xA0, 0x0151) := by decide

/-- AL40, R97: ADD HL,SP. -/
theorem test_al40 :
    after ((((holding [0x39]).setR8 .h 0x00).setR8 .l 0x01).setSp 0xFFFF)
        (fun t => (t.hl, flags t, t.pc)) =
      some (0x0000, 0x30, 0x0151) := by decide

/-- AL41, R98: ADD SP,e. -/
theorem test_al41 :
    after (((holding [0xE8, 0x02]).setSp 0xFFF8).setF (flagsOfByte 0xF0))
        (fun t => (t.sp, flags t, t.pc)) =
      some (0xFFFA, 0x00, 0x0152) := by decide

/-- AL43, R98: ADD SP,e. -/
theorem test_al43 :
    after ((holding [0xE8, 0xFF]).setSp 0x0001)
        (fun t => (t.sp, flags t, t.pc)) =
      some (0x0000, 0x30, 0x0152) := by decide

/-- LO1, R100: LD B,C. -/
theorem test_lo1 :
    after ((holding [0x41]).setR8 .c 0x5A)
        (fun t => (t.b, t.c, flags t, t.pc)) =
      some (0x5A, 0x5A, 0x00, 0x0151) := by decide

/-- LO2, R100: LD A,A. -/
theorem test_lo2 :
    after ((holding [0x7F]).setR8 .a 0x77)
        (fun t => (t.a, t.pc)) =
      some (0x77, 0x0151) := by decide

/-- LO3, R101: LD H,(HL). -/
theorem test_lo3 :
    after (cell (((holding [0x66]).setR8 .h 0xC1).setR8 .l 0x23) 0xC123 0x99)
        (fun t => (t.h, t.l, t.pc)) =
      some (0x99, 0x23, 0x0151) := by decide

/-- LO4, R102: LD (HL),L. -/
theorem test_lo4 :
    after (((holding [0x75]).setR8 .h 0xC0).setR8 .l 0x42)
        (fun t => (t.readByte 0xC042, t.pc)) =
      some (0x42, 0x0151) := by decide

/-- LO5, R103: LD E,n. -/
theorem test_lo5 :
    after (holding [0x1E, 0xA5])
        (fun t => (t.e, t.pc)) =
      some (0xA5, 0x0152) := by decide

/-- LO6, R104: LD (HL),n. -/
theorem test_lo6 :
    after (((holding [0x36, 0x7E]).setR8 .h 0x98).setR8 .l 0x00)
        (fun t => (t.pc, t.readByte 0x9800)) =
      some (0x0152, 0x7E) := by decide

/-- LO7, R105: LD SP,nn. -/
theorem test_lo7 :
    after (holding [0x31, 0x34, 0x12])
        (fun t => (t.sp, t.pc)) =
      some (0x1234, 0x0153) := by decide

/-- LO8, R105: LD DE,nn. -/
theorem test_lo8 :
    after (holding [0x11, 0x10, 0x80])
        (fun t => (t.d, t.e, t.pc)) =
      some (0x80, 0x10, 0x0153) := by decide

/-- LO9, R106: LD A,(BC). -/
theorem test_lo9 :
    after (cell (((holding [0x0A]).setR8 .b 0xC0).setR8 .c 0x05) 0xC005 0x6B)
        (fun t => (t.a, t.pc)) =
      some (0x6B, 0x0151) := by decide

/-- LO10, R107: LD (DE),A. -/
theorem test_lo10 :
    after ((((holding [0x12]).setR8 .a 0x3C).setR8 .d 0xE0).setR8 .e 0x00)
        (fun t => (t.readByte 0xC000, t.readByte 0xE000, t.pc)) =
      some (0x3C, 0x3C, 0x0151) := by decide

/-- LO11, R108: LD A,(HL+). -/
theorem test_lo11 :
    after (cell (((holding [0x2A]).setR8 .h 0xC0).setR8 .l 0xFF) 0xC0FF 0x11)
        (fun t => (t.a, t.hl, t.pc)) =
      some (0x11, 0xC100, 0x0151) := by decide

/-- LO12, R108: LD A,(HL+). -/
theorem test_lo12 :
    after (((holding [0x2A]).setR8 .h 0xFF).setR8 .l 0xFF)
        (fun t => (t.a, t.hl, t.pc)) =
      some (0xFF, 0x0000, 0x0151) := by decide

/-- LO13, R109: LD A,(HL-). -/
theorem test_lo13 :
    after (cell (((holding [0x3A]).setR8 .h 0xC0).setR8 .l 0x00) 0xC000 0x22)
        (fun t => (t.a, t.hl, t.pc)) =
      some (0x22, 0xBFFF, 0x0151) := by decide

/-- LO14, R110: LD (HL+),A. -/
theorem test_lo14 :
    after ((((holding [0x22]).setR8 .a 0x44).setR8 .h 0xDF).setR8 .l 0xFF)
        (fun t => (t.hl, t.readByte 0xDFFF, t.pc)) =
      some (0xE000, 0x44, 0x0151) := by decide

/-- LO15, R111: LD (HL-),A. -/
theorem test_lo15 :
    after ((((holding [0x32]).setR8 .a 0x55).setR8 .h 0x80).setR8 .l 0x00)
        (fun t => (t.hl, t.readByte 0x8000, t.pc)) =
      some (0x7FFF, 0x55, 0x0151) := by decide

/-- LO16, R112: LDH (n),A. -/
theorem test_lo16 :
    after ((holding [0xE0, 0x80]).setR8 .a 0x9C)
        (fun t => (t.pc, t.readByte 0xFF80)) =
      some (0x0152, 0x9C) := by decide

/-- LO17, R112: LDH (n),A to P1. -/
theorem test_lo17 :
    after ((holding [0xE0, 0x00]).setR8 .a 0x10)
        (fun t => (t.readByte 0xFF00, t.pc)) =
      some (0xDF, 0x0152) := by decide

/-- LO18, R113: LDH A,(n) from P1. -/
theorem test_lo18 :
    after (((holding [0xF0, 0x00]).setR8 .a 0x00).setInput (pressed true false false false true false false false))
        (fun t => (t.a, t.pc)) =
      some (0xC6, 0x0152) := by decide

/-- LO19, R114: LD (C),A. -/
theorem test_lo19 :
    after (((holding [0xE2]).setR8 .a 0x12).setR8 .c 0x85)
        (fun t => (t.readByte 0xFF85, t.pc)) =
      some (0x12, 0x0151) := by decide

/-- LO20, R115: LD A,(C). -/
theorem test_lo20 :
    after ((holding [0xF2]).setR8 .c 0x44)
        (fun t => (t.a, t.pc)) =
      some (0xFF, 0x0151) := by decide

/-- LO21, R116: LD (nn),A. -/
theorem test_lo21 :
    after ((holding [0xEA, 0x00, 0x98]).setR8 .a 0x01)
        (fun t => (t.pc, t.readByte 0x9800)) =
      some (0x0153, 0x01) := by decide

/-- LO22, R117: LD A,(nn). -/
theorem test_lo22 :
    after (cell (holding [0xFA, 0x00, 0x01]) 0x0100 0xC3)
        (fun t => (t.a, t.pc)) =
      some (0xC3, 0x0153) := by decide

/-- LO23, R118: LD (nn),SP. -/
theorem test_lo23 :
    after ((holding [0x08, 0x00, 0xC1]).setSp 0xFFF8)
        (fun t => (t.readByte 0xC100, t.readByte 0xC101, t.pc)) =
      some (0xF8, 0xFF, 0x0153) := by decide

/-- LO24, R119: LD SP,HL. -/
theorem test_lo24 :
    after (((holding [0xF9]).setR8 .h 0xDF).setR8 .l 0xF0)
        (fun t => (t.sp, t.pc)) =
      some (0xDFF0, 0x0151) := by decide

/-- LO25, R120: LD HL,SP+e. -/
theorem test_lo25 :
    after ((holding [0xF8, 0x02]).setSp 0xFFF8)
        (fun t => (t.hl, t.sp, flags t, t.pc)) =
      some (0xFFFA, 0xFFF8, 0x00, 0x0152) := by decide

/-- LO26, R120: LD HL,SP+e. -/
theorem test_lo26 :
    after ((holding [0xF8, 0x80]).setSp 0x0000)
        (fun t => (t.hl, flags t, t.pc)) =
      some (0xFF80, 0x00, 0x0152) := by decide

/-- LO28, R121: PUSH AF. -/
theorem test_lo28 :
    after ((((holding [0xF5]).setR8 .a 0xAB).setF (flagsOfByte 0xD0)).setSp 0xD000)
        (fun t => (t.sp, t.readByte 0xCFFF, t.readByte 0xCFFE, t.pc)) =
      some (0xCFFE, 0xAB, 0xD0, 0x0151) := by decide

/-- LO29, R122: POP AF. -/
theorem test_lo29 :
    after (cell (cell ((holding [0xF1]).setSp 0xC000) 0xC000 0xFF) 0xC001 0x12)
        (fun t => (t.a, flags t, t.sp, t.pc)) =
      some (0x12, 0xF0, 0xC002, 0x0151) := by decide

/-- LO30, R122: POP HL. -/
theorem test_lo30 :
    after (cell ((holding [0xE1]).setSp 0xFFFD) 0xFFFD 0x34)
        (fun t => (t.hl, t.sp, t.pc)) =
      some (0x0034, 0xFFFF, 0x0151) := by decide

/-- CO1, R125: JR e. -/
theorem test_co1 :
    after (holding [0x18, 0xFC])
        (fun t => t.pc) =
      some 0x014E := by decide

/-- CO2, R125: JR e (self). -/
theorem test_co2 :
    after (holding [0x18, 0xFE])
        (fun t => t.pc) =
      some 0x0150 := by decide

/-- CO3, R126: JR NZ,e taken. -/
theorem test_co3 :
    after ((holding [0x20, 0xFD]).setF (flagsOfByte 0x00))
        (fun t => t.pc) =
      some 0x014F := by decide

/-- CO4, R126: JR NZ,e not taken. -/
theorem test_co4 :
    after ((holding [0x20, 0xFD]).setF (flagsOfByte 0x80))
        (fun t => t.pc) =
      some 0x0152 := by decide

/-- CO6, R127: JP nn. -/
theorem test_co6 :
    after (holding [0xC3, 0x00, 0xC0])
        (fun t => t.pc) =
      some 0xC000 := by decide

/-- CO7, R128: JP Z,nn not taken. -/
theorem test_co7 :
    after ((holding [0xCA, 0x00, 0xC0]).setF (flagsOfByte 0x00))
        (fun t => t.pc) =
      some 0x0153 := by decide

/-- CO8, R128: JP NC,nn taken. -/
theorem test_co8 :
    after ((holding [0xD2, 0x34, 0x12]).setF (flagsOfByte 0x80))
        (fun t => t.pc) =
      some 0x1234 := by decide

/-- CO9, R129: JP HL. -/
theorem test_co9 :
    after (((holding [0xE9]).setR8 .h 0xC0).setR8 .l 0x00)
        (fun t => t.pc) =
      some 0xC000 := by decide

/-- CO10, R130: CALL nn. -/
theorem test_co10 :
    after ((holding [0xCD, 0x00, 0x02]).setSp 0xFFFE)
        (fun t => (t.pc, t.sp, t.readByte 0xFFFD, t.readByte 0xFFFC)) =
      some (0x0200, 0xFFFC, 0x01, 0x53) := by decide

/-- CO11, R131: CALL NZ,nn not taken. -/
theorem test_co11 :
    after (((holding [0xC4, 0x00, 0x02]).setSp 0xFFFE).setF (flagsOfByte 0x80))
        (fun t => (t.pc, t.sp)) =
      some (0x0153, 0xFFFE) := by decide

/-- CO12, R131: CALL C,nn taken. -/
theorem test_co12 :
    after (((holding [0xDC, 0x00, 0x02]).setSp 0xFFFE).setF (flagsOfByte 0x10))
        (fun t => (t.pc, t.sp)) =
      some (0x0200, 0xFFFC) := by decide

/-- CO13, R132: RET. -/
theorem test_co13 :
    after (cell (cell ((holding [0xC9]).setSp 0xFFFC) 0xFFFC 0x53) 0xFFFD 0x01)
        (fun t => (t.pc, t.sp)) =
      some (0x0153, 0xFFFE) := by decide

/-- CO14, R133: RET Z not taken. -/
theorem test_co14 :
    after (((holding [0xC8]).setSp 0xFFFC).setF (flagsOfByte 0x00))
        (fun t => (t.pc, t.sp)) =
      some (0x0151, 0xFFFC) := by decide

/-- CO15, R133: RET NC taken. -/
theorem test_co15 :
    after (cell (cell (((holding [0xD0]).setSp 0xFFFC).setF (flagsOfByte 0x00)) 0xFFFC 0x00) 0xFFFD 0xC0)
        (fun t => (t.pc, t.sp)) =
      some (0xC000, 0xFFFE) := by decide

/-- SY1, R134: NOP. -/
theorem test_sy1 :
    after (holding [0x00])
        (fun t => t.pc) =
      some 0x0151 := by decide

/-- SY2, R135: HALT. -/
theorem test_sy2 :
    after (holding [0x76])
        (fun t => (t.pc, t.run)) =
      some (0x0151, .halted) := by decide

/-- SY3, R136: STOP. -/
theorem test_sy3 :
    after (holding [0x10, 0x00])
        (fun t => (t.pc, t.run)) =
      some (0x0152, .halted) := by decide

/-- SY4, R136: STOP with second byte 0xFF. -/
theorem test_sy4 :
    after (holding [0x10, 0xFF])
        (fun t => (t.pc, t.run)) =
      some (0x0152, .halted) := by decide

/-- SY5, R137: DI. -/
theorem test_sy5 :
    after (holding [0xF3])
        (fun t => (t.ime, t.pc)) =
      some (false, 0x0151) := by decide

/-- SY6, R138: refused 0xCB. -/
theorem test_sy6 :
    after ((holding [0xCB, 0x00]).setR8 .a 0x12)
        (fun t => (t.run, t.a, t.pc)) =
      some (.faulted 0x0150 (.decodeError 0xCB), 0x12, 0x0150) := by decide

/-- SY7, R138: refused 0xD3. -/
theorem test_sy7 :
    after ((holding [0xD3, 0x00]).setR8 .a 0x12)
        (fun t => (t.run, t.a, t.pc)) =
      some (.faulted 0x0150 (.decodeError 0xD3), 0x12, 0x0150) := by decide

/-- SY8, R138: refused 0xFB. -/
theorem test_sy8 :
    after ((holding [0xFB, 0x00]).setR8 .a 0x12)
        (fun t => (t.run, t.a, t.pc)) =
      some (.faulted 0x0150 (.decodeError 0xFB), 0x12, 0x0150) := by decide

/-- SY9, R138: refused 0xD9. -/
theorem test_sy9 :
    after ((holding [0xD9, 0x00]).setR8 .a 0x12)
        (fun t => (t.run, t.a, t.pc)) =
      some (.faulted 0x0150 (.decodeError 0xD9), 0x12, 0x0150) := by decide

/-- SY10, R138: refused 0xFF. -/
theorem test_sy10 :
    after ((holding [0xFF, 0x00]).setR8 .a 0x12)
        (fun t => (t.run, t.a, t.pc)) =
      some (.faulted 0x0150 (.decodeError 0xFF), 0x12, 0x0150) := by decide

/-- SY11, R138: refused 0xC7. -/
theorem test_sy11 :
    after ((holding [0xC7, 0x00]).setR8 .a 0x12)
        (fun t => (t.run, t.a, t.pc)) =
      some (.faulted 0x0150 (.decodeError 0xC7), 0x12, 0x0150) := by decide

/-- OO1, R141: LD A,(nn) under Fault. -/
theorem test_oo1 :
    after ((faulting (holding [0xFA, 0x00, 0xA0])).setR8 .a 0x12)
        (fun t => (t.run, t.a, t.pc)) =
      some (.faulted 0x0150 (.outOfBounds 0xA000 .read), 0x12, 0x0150) := by decide

/-- OO2, R141: PUSH BC under Fault, SP=C001. -/
theorem test_oo2 :
    after ((((faulting (holding [0xC5])).setR8 .b 0x12).setR8 .c 0x34).setSp 0xC001)
        (fun t => (t.run, t.sp, t.pc, t.readByte 0xC000)) =
      some (.faulted 0x0150 (.outOfBounds 0xBFFF .write), 0xC001, 0x0150, 0x00) := by decide

/-- OO4, R141: LD (HL),n under Fault. -/
theorem test_oo4 :
    after (((faulting (holding [0x36, 0x01])).setR8 .h 0xFE).setR8 .l 0xA0)
        (fun t => (t.run, t.pc)) =
      some (.faulted 0x0150 (.outOfBounds 0xFEA0 .write), 0x0150) := by decide

/-- OO5, R34: LD (nn),A to ROM. -/
theorem test_oo5 :
    after (cell ((faulting (holding [0xEA, 0x00, 0x20])).setR8 .a 0x55) 0x2000 0x00)
        (fun t => (t.pc, t.run, t.readByte 0x2000)) =
      some (0x0153, .running, 0x00) := by decide

/-! ## Steps the vectors leave out, by hand from the rules -/

/-- R81 and R82 at (HL): 0x3C + 0x12 + 1 = 0x4F. -/
theorem test_adc_at_hl :
    after ((cell ((holding [0x8E]).setHl 0xC010) 0xC010 0x12).setAf 0x3C10) (fun t => (t.a, flags t)) =
      some (0x4F, 0x00) := by decide

/-- R83 at (HL): 0x3E - 0x0F = 0x2F with a borrow from bit 4. -/
theorem test_sub_at_hl :
    after ((cell ((holding [0x96]).setHl 0xC010) 0xC010 0x0F).setAf 0x3E00) (fun t => (t.a, flags t)) =
      some (0x2F, 0x60) := by decide

/-- R84 at (HL): 0x3B - 0x4F - 1 = 0xEB with both borrows. -/
theorem test_sbc_at_hl :
    after ((cell ((holding [0x9E]).setHl 0xC010) 0xC010 0x4F).setAf 0x3B10) (fun t => (t.a, flags t)) =
      some (0xEB, 0x70) := by decide

/-- R85 at (HL). -/
theorem test_and_at_hl :
    after ((cell ((holding [0xA6]).setHl 0xC010) 0xC010 0x3F).setAf 0x5A10) (fun t => (t.a, flags t)) =
      some (0x1A, 0x20) := by decide

/-- R86 at (HL), which reads the joypad register 0xCF where HL is 0xFF00. -/
theorem test_xor_at_hl :
    after (((holding [0xAE]).setHl 0xFF00).setAf 0xFF00) (fun t => (t.a, flags t)) = some (0x30, 0x00) := by decide

/-- R87 at (HL). -/
theorem test_or_at_hl :
    after ((cell ((holding [0xB6]).setHl 0xC010) 0xC010 0x03).setAf 0x5AF0) (fun t => (t.a, flags t)) =
      some (0x5B, 0x00) := by decide

/-- R88 at (HL): A is kept. -/
theorem test_cp_at_hl :
    after ((cell ((holding [0xBE]).setHl 0xC010) 0xC010 0x40).setAf 0x3C00) (fun t => (t.a, flags t)) =
      some (0x3C, 0x50) := by decide

/-- R106, the example of the rule with its DE. -/
theorem test_ld_a_at_de :
    after (cell (((holding [0x1A]).setDe 0x0250)) 0x0250 0x3C) (fun t => (t.a, t.de)) = some (0x3C, 0x0250) := by decide

/-- R107 through BC. -/
theorem test_ld_at_bc_a :
    after (((holding [0x02]).setBc 0x8010).setAf 0xFF00) (fun t => (t.readByte 0x8010, t.bc)) =
      some (0xFF, 0x8010) := by decide

/-- R138: the RST opcodes but the two of the vectors, each raising DecodeError with its own byte. -/
theorem test_rst_refused :
    ∀ op ∈ ([0xCF, 0xD7, 0xDF, 0xE7, 0xEF, 0xF7] : List Byte),
      after (holding [op, 0x00]) (fun t => (t.run, t.pc)) = some (.faulted 0x0150 (.decodeError op), 0x0150) := by decide

/-- R56: a byte stored in WRAM is the byte fetched there (INC A at 0xC000). -/
theorem test_code_in_wram :
    after ((cell blank 0xC000 0x3C).setPc 0xC000) (fun t => (t.a, t.pc)) = some (0x01, 0xC001) := by decide

/-- R23 and R31: an instruction at 0xFFFE, whose immediate is at 0xFFFF (0xFF) and whose next address is 0x0000. -/
theorem test_pc_wraps :
    after ((cell blank 0xFFFE 0x3E).setPc 0xFFFE) (fun t => (t.a, t.pc)) = some (0xFF, 0x0000) := by decide

/-- R127: a jump into the cartridge RAM window fetches the sentinel 0xFF, which is refused. -/
theorem test_run_into_unmapped :
    after (blank.setPc 0xA000) (fun t => (t.run, t.pc)) = some (.faulted 0xA000 (.decodeError 0xFF), 0xA000) := by decide

/-- R27: a Halted CPU has no step. -/
theorem test_halted_stays : step (blank.setRun .halted) = .fault .halted := by rfl

/-- R7, R27, log entry 14: from reset with no image the first fetch, at 0x0100, reads `ROM_FILL`. -/
theorem test_first_step_of_reset :
    after State.reset (fun t => (t.run, t.pc)) = some (.faulted 0x0100 (.decodeError 0xFF), 0x0100) := by decide

/-! ## Placing an instruction -/

/-- The step after placing INC A runs INC A on the reset state: A = 0x01, F = 0xB0 become 0x02 and 0x10. -/
theorem test_with_fetch_word :
    after (State.reset.withFetchWord 8 0x3C) (fun t => (t.a, flags t, t.pc)) = some (0x02, 0x10, 0x0101) := by decide

/-- The bytes of a three-byte instruction lie low byte first: JP 0x0150. -/
theorem test_with_fetch_word_long :
    after (State.reset.withFetchWord 24 0x0150C3) (fun t => t.pc) = some 0x0150 := by decide

/-- Where pc is no storage, the instruction stands at 0x0100. -/
theorem test_with_fetch_word_moves :
    after ((State.reset.setPc 0xA000).withFetchWord 8 0x00) (fun t => t.pc) = some 0x0101 := by decide

/-! ## The joypad register, R154 and R155 -/

/-- The table of spec/95_test_vectors.md: P15, P14, the buttons, the value read. -/
def joypadRows : List (Bool × Bool × JoypadState × Byte) :=
  [(false, false, pressed false false false false false false false false, 0xCF),
   (false, false, pressed true false false false false false false false, 0xCE),
   (false, false, pressed false false false false false false true false, 0xCE),
   (false, false, pressed true false false false true false false false, 0xC6),
   (false, false, pressed true true true true false false false false, 0xC0),
   (false, false, pressed false true false false false true false false, 0xC9),
   (false, true, pressed true false false false false false false false, 0xDF),
   (false, true, pressed false false false false false false true false, 0xDE),
   (false, true, pressed true false false false true false false false, 0xD7),
   (false, true, pressed false true false false false true false false, 0xDB),
   (true, false, pressed true false false false true false false false, 0xEE),
   (true, false, pressed true true true true true true true true, 0xE0),
   (true, false, pressed false true false false false true false false, 0xED),
   (true, true, pressed true true true true true true true true, 0xFF)]

theorem test_joypad_read :
    ∀ x ∈ joypadRows, ({ blank.setInput x.2.2.1 with p15 := x.1, p14 := x.2.1 } : State).readByte 0xFF00 = x.2.2.2 := by
  decide

/-- A write of 0xC5 selects both groups, a write of 0x30 none. -/
theorem test_joypad_write :
    (blank.writeByte 0xFF00 0xC5).readByte 0xFF00 = 0xCF ∧ (blank.writeByte 0xFF00 0x30).readByte 0xFF00 = 0xFF := by
  decide

/-! ## The renderer, R156 and R157 -/

/-- The rows of spec/95_test_vectors.md: the two bytes, the eight indices from left to right. -/
def tileRows : List (Byte × Byte × List (BitVec 2)) :=
  [(0x3C, 0x7E, [0, 2, 3, 3, 3, 3, 2, 0]),
   (0x42, 0x42, [0, 3, 0, 0, 0, 0, 3, 0]),
   (0x7E, 0x5E, [0, 3, 1, 3, 3, 3, 3, 0]),
   (0x7E, 0x0A, [0, 1, 1, 1, 3, 1, 3, 0]),
   (0x7C, 0x56, [0, 3, 1, 3, 1, 3, 2, 0]),
   (0x38, 0x7C, [0, 2, 3, 3, 3, 2, 0, 0]),
   (0xFF, 0x00, [1, 1, 1, 1, 1, 1, 1, 1]),
   (0x00, 0xFF, [2, 2, 2, 2, 2, 2, 2, 2]),
   (0x80, 0x01, [1, 0, 0, 0, 0, 0, 0, 2])]

theorem test_tile_rows :
    ∀ x ∈ tileRows, (List.range 8).map (planePixel x.1 x.2.1) = x.2.2 := by decide

/-- Map entry (3, 2) sits at 0x9843; tile 5 is at 0x8050. -/
theorem test_map_address :
    Params.mapAddr Params.decided 3 2 = 0x9843 ∧ Params.tileAddr Params.decided 0x05 = 0x8050 := by decide

/-- A pixel of the framebuffer, row 17 and column 24, from map entry (3, 2) and row 1 of tile 5. -/
theorem test_pixel :
    (cell (cell (cell blank 0x9843 0x05) 0x8052 0x80) 0x8053 0x80).pixel 24 17 = 3 := by decide

/-- R142: outside the well-formed configurations, a tile beyond VRAM is reported, with its map position. -/
theorem test_invalid_tile_index :
    State.render { blank with params := { Params.decided with tileBase := 0x9FF1, mapW := 1, mapH := 1 } } =
      .error (.invalidTileIndex 0 0) := by rfl

/-! ## The host, R159 -/

theorem test_host_step : (holding [0x3C]).perform .step = ((holding [0x3C]).setR8 .a 0x01).setPc 0x0151 := by decide

theorem test_host_input : ((blank.setRun .halted).perform (.input (pressed true false false false false false false
    false))).readByte 0xFF00 = 0xCE := by decide

/-- A long image is refused, and the state is as before. -/
theorem test_host_load_long : blank.load (List.replicate 0x8001 0x00) = .error .imageTooLong :=
  State.load_long blank (by decide) (by rw [List.length_replicate]; decide)

/-! ## Text and timing -/

theorem test_spellings :
    Instr.spellings (.ldR8N8 .b 0xFF) = ["LD B,0xFF"] ∧ Instr.spellings (.jrE8 0xFC) = ["JR -4"] ∧
      Instr.spellings .ldAAtHlInc = ["LD A,(HL+)", "LDI A,(HL)", "LD A,(HLI)"] ∧
      Instr.spellings (.ldHlSpE8 0x02) = ["LD HL,SP+2", "LDHL SP,2"] := by decide

/-- P1 of spec/95_test_vectors.md: JR NZ,0x0102 at 0x0103 is 20 FD; 0x0200 is out of reach. -/
theorem test_branch_displacement :
    branchDisplacement 0x0103 0x0102 = some 0xFD ∧ branchDisplacement 0x0103 0x0200 = none := by decide

theorem test_machine_cycles :
    Instr.machineCycles true (.retCc .z) = some 5 ∧ Instr.machineCycles false (.retCc .z) = some 2 ∧
      Instr.machineCycles true (.ldA16Sp 0xC100) = some 5 ∧ Instr.machineCycles true .refusedEi = none := by decide

/-! ## Witnesses: for every statement with hypotheses, operands and a state that meet them together -/

/-- The machine of the statements about `OOB_POLICY = Fault`. -/
def strict : State := faulting blank

theorem test_witness_DecodeOfEncode : (Instr.refusedUnassigned 0xFD).wf = true ∧ (Instr.jpA16 0xFFFF).wf = true := by decide

theorem test_witness_EncodeOfDecode :
    decode [0x21, 0x10, 0x80, 0x76] = .ok (.ldRrN16 .hl 0x8010, [0x76]) ∧ decode [0xFD] = .ok (.refusedUnassigned 0xFD, []) :=
  ⟨rfl, rfl⟩

theorem test_witness_RefusedOpcodesExactly :
    decode [0xD9] = .ok (.refusedReti, []) ∧ decode [0x06, 0x01] = .ok (.ldR8N8 .b 0x01, []) := ⟨rfl, rfl⟩

/-- A one-byte instruction in the last cell of HRAM: under `Fault` the byte after it is not readable, nor read. -/
def atTheEdge : State := (cell strict 0xFFFE 0x3C).setPc 0xFFFE

theorem test_witness_StepRunsDecodedInstruction :
    atTheEdge.run = .running ∧
      decodeInstr [atTheEdge.drawInput.readByte atTheEdge.pc, atTheEdge.drawInput.readByte (atTheEdge.pc + 1),
        atTheEdge.drawInput.readByte (atTheEdge.pc + 2)] = some (.incR8 .a) ∧ blank.inputs = [] ∧
      (∀ k, k < (Instr.incR8 .a).length → atTheEdge.permits (atTheEdge.pc + BitVec.ofNat 16 k) = true) ∧
      atTheEdge.permits (atTheEdge.pc + 1) = false := by decide

theorem test_witness_StepRunsDecodedInstruction_long :
    (∀ k, k < (Instr.jpA16 0).length → blank.permits (blank.pc + BitVec.ofNat 16 k) = true) ∧ blank.run = .running := by
  decide

/-- R152: LDH A,(0x00) sees the buttons as the host makes them before the step, the first of its inputs. -/
theorem test_step_draws_input :
    after { holding [0xF0, 0x00] with inputs := [{ JoypadState.none with right := true }, JoypadState.none] }
      (fun t => (t.a, t.inputs)) = some (0xCE, [JoypadState.none]) := by decide

theorem test_witness_RefusedOpcodeStep :
    (holding [0xD3]).run = .running ∧ (holding [0xD3]).permits 0x0150 = true ∧
      (holding [0xD3]).drawInput.readByte 0x0150 = 0xD3 := by decide

theorem test_witness_OnlyResetLeavesTerminal :
    (blank.setRun .halted).run = .halted ∧ (blank.raise (.decodeError 0xD3)).run = .faulted 0x0150 (.decodeError 0xD3) ∧
      (blank.setRun .halted).run ≠ .running := by decide

theorem test_witness_load :
    ∃ t, (blank.setRun .halted).load [0x3C] = .ok t := ⟨_, State.load_wf _ (by decide) (by decide)⟩

/-- The three clauses, at the border of VRAM and the cartridge RAM window: pc at 0xA000, at 0x9FFF before a 2-byte and
at 0x9FFE before a 3-byte instruction. -/
theorem test_witness_FetchOutOfBounds :
    (strict.setPc 0xA000).permits 0xA000 = false ∧
      ((cell strict 0x9FFF 0x3E).permits 0x9FFF = true ∧
        (decodeOpcode ((cell strict 0x9FFF 0x3E).drawInput.readByte 0x9FFF)).length = 2 ∧
        (cell strict 0x9FFF 0x3E).permits (0x9FFF + 1) = false) ∧
      ((cell strict 0x9FFE 0xC3).permits 0x9FFE = true ∧ (cell strict 0x9FFE 0xC3).permits (0x9FFE + 1) = true ∧
        (decodeOpcode ((cell strict 0x9FFE 0xC3).drawInput.readByte 0x9FFE)).length = 3 ∧
        (cell strict 0x9FFE 0xC3).permits (0x9FFE + 2) = false) ∧ strict.run = .running := by decide

/-- The only access, the second of two, and the read before the write. -/
theorem test_witness_DataOutOfBounds :
    strict.firstDenied (.ldAA16 0xA000) = some ⟨0xA000, .read⟩ ∧
      (strict.setSp 0xC001).firstDenied (.pushRr .bc) = some ⟨0xBFFF, .write⟩ ∧
      (strict.setHl 0xFFFF).firstDenied .incAtHl = some ⟨0xFFFF, .read⟩ ∧
      blank.firstDenied (.ldAA16 0xA000) = none := by decide

theorem test_witness_RegisterFile : R8.a ≠ R8.l := by decide

/-- The clauses over the image: its first and last byte, the cells before and after it, and RAM. -/
theorem test_witness_LoadIsResetWithImage :
    blank.params.wf ∧ ([0x3C, 0x76] : List Byte).length ≤ 0x8000 ∧ blank.params.romBase + 1 < 0x8000 ∧
      blank.params.romBase + ([0x3C, 0x76] : List Byte).length ≤ 0x7FFF ∧ isStored 0x8000 = true ∧ isStored 0xFFFE = true ∧
      ({ blank with params := { Params.decided with romBase := 0x100 } } : State).params.wf := by decide

theorem test_witness_LoadIsResetWithImage_long :
    blank.params.wf ∧ 0x8000 < (List.replicate 0x8001 (0 : Byte)).length :=
  ⟨by decide, by rw [List.length_replicate]; decide⟩

theorem test_witness_ResetStateValues :
    (blank.setRun .halted).params = Params.decided ∧ (blank.setRun .halted).joypad = JoypadState.none ∧
      (blank.setRun .halted).inputs = [] := by decide

theorem test_witness_ResetRestoresLoadedState :
    (∃ t, blank.load [0x3C] = .ok t) ∧
      ∀ x ∈ [HostAction.step, HostAction.input JoypadState.none, HostAction.reset], ∀ other, x ≠ HostAction.load other :=
  ⟨⟨_, State.load_wf _ (by decide) (by decide)⟩, by simp⟩

/-- The ends of the four ranges. -/
theorem test_witness_StorageReadsBack :
    ∀ a ∈ ([0x8000, 0x9FFF, 0xC000, 0xDFFF, 0xFE00, 0xFE9F, 0xFF80, 0xFFFE] : List Word),
      (0x8000 ≤ a.toNat ∧ a.toNat ≤ 0x9FFF) ∨ (0xC000 ≤ a.toNat ∧ a.toNat ≤ 0xDFFF) ∨
        (0xFE00 ≤ a.toNat ∧ a.toNat ≤ 0xFE9F) ∨ (0xFF80 ≤ a.toNat ∧ a.toNat ≤ 0xFFFE) := by simp

theorem test_witness_RomAndEchoAccess :
    (0x7FFF : Word).toNat ≤ 0x7FFF ∧ 0xE000 ≤ (0xE000 : Word).toNat ∧ (0xFDFF : Word).toNat ≤ 0xFDFF ∧
      (blank.writeByte 0xE000 0x3C).readByte 0xC000 = 0x3C ∧ (blank.writeByte 0xFDFF 0x3C).readByte 0xDDFF = 0x3C ∧
      (blank.writeByte 0x7FFF 0x3C).readByte 0x7FFF = 0xFF := by decide

/-- The ends of the out-of-bounds ranges, under both policies. -/
theorem test_witness_OutOfBoundsPolicy :
    (∀ a ∈ ([0xA000, 0xBFFF, 0xFEA0, 0xFEFF, 0xFF01, 0xFF7F, 0xFFFF] : List Word),
      (0xA000 ≤ a.toNat ∧ a.toNat ≤ 0xBFFF) ∨ (0xFEA0 ≤ a.toNat ∧ a.toNat ≤ 0xFEFF) ∨
        (0xFF01 ≤ a.toNat ∧ a.toNat ≤ 0xFF7F) ∨ a.toNat = 0xFFFF) ∧
    ([0xA000, 0xBFFF, 0xFEA0, 0xFEFF, 0xFF01, 0xFF7F, 0xFFFF] : List Word).map strict.permits = List.replicate 7 false ∧
    ([0x9FFF, 0xC000, 0xFE9F, 0xFF00, 0xFF80, 0xFFFE] : List Word).map strict.permits = List.replicate 6 true ∧
    blank.params.oobPolicy = .sentinel ∧ strict.params.oobPolicy = .fault :=
  ⟨by simp, by decide, by decide, rfl, rfl⟩

theorem test_witness_BusWriteFrame :
    blank.busWrite 0xC000 0x3C = .ok (blank.writeByte 0xC000 0x3C) ∧ samePlace 0xC000 0xC001 = false ∧
      samePlace 0xC000 0xE000 = true ∧ samePlace 0xFF00 0xFF00 = true ∧ (0xC000 : Word) ≠ 0xFF00 :=
  ⟨rfl, by decide, by decide, by decide, by decide⟩

/-- HL, BC and DE where an access goes through and where it does not: the hypotheses of the statements of results. -/
theorem test_witness_permits :
    (strict.setHl 0xC000).permits (strict.setHl 0xC000).hl = true ∧
      (strict.setHl 0xA000).permits (strict.setHl 0xA000).hl = false ∧
      (strict.setBc 0x9FFF).permits (strict.setBc 0x9FFF).bc = true ∧
      (strict.setBc 0xBFFF).permits (strict.setBc 0xBFFF).bc = false ∧
      (strict.setDe 0xFF00).permits (strict.setDe 0xFF00).de = true ∧
      (strict.setDe 0xFEFF).permits (strict.setDe 0xFEFF).de = false := by decide

theorem test_witness_AluResults :
    ((strict.setHl 0xC000).setBc 0x1200).getR8 .b = 0x12 ∧ (cell (strict.setHl 0xC000) 0xC000 0x12).readByte 0xC000 = 0x12 := by
  decide

/-- The high page: 0xFF80 goes through, 0xFF7F does not; by n and by C. -/
theorem test_witness_HighPageResult :
    strict.permits (BitVec.ofNat 16 (0xFF00 + (0x80 : Byte).toNat)) = true ∧
      strict.permits (BitVec.ofNat 16 (0xFF00 + (0x7F : Byte).toNat)) = false ∧
      strict.permits (BitVec.ofNat 16 (0xFF00 + (strict.setBc 0x00FE).c.toNat)) = true ∧
      strict.permits (BitVec.ofNat 16 (0xFF00 + (strict.setBc 0x00FF).c.toNat)) = false := by decide

/-- An absolute address that goes through with and without the next one, and one that does not. -/
theorem test_witness_AbsoluteLoadStoreResult :
    (strict.permits 0xC000 = true ∧ strict.permits (0xC000 + 1) = true) ∧
      (strict.permits 0x9FFF = true ∧ strict.permits (0x9FFF + 1) = false) ∧ strict.permits 0xFFFF = false := by decide

/-- The three cases of a push and of a pop: both bytes, the first denied, the second denied. -/
theorem test_witness_PushResult :
    (strict.permits (0xFFFE - 1) = true ∧ strict.permits (0xFFFE - 2) = true) ∧ strict.permits (0x0000 - 1) = false ∧
      (strict.permits (0xC001 - 1) = true ∧ strict.permits (0xC001 - 2) = false) := by decide

theorem test_witness_PopResult :
    (strict.permits 0xFFFC = true ∧ strict.permits (0xFFFC + 1) = true) ∧ strict.permits 0xFFFF = false ∧
      (strict.permits 0xFFFE = true ∧ strict.permits (0xFFFE + 1) = false) := by decide

/-- The states of a run of LD A,(HL+) from reset. -/
def indexed : Nat → State
  | 0 => State.reset
  | k + 1 => (((indexed k).setHl ((indexed k).hl + 1)).setA ((indexed k).readByte (indexed k).hl)).advance 1

theorem indexed_params (k : Nat) : (indexed k).params = Params.decided := by
  induction k with
  | zero => rfl
  | succ k ih => exact ih

theorem test_witness_IndexedLoadsAreConsecutive :
    State.reset.params.oobPolicy = .sentinel ∧ indexed 0 = State.reset ∧
      ∀ k, exec .ldAAtHlInc (indexed k) = .next (indexed (k + 1)) := by
  refine ⟨rfl, rfl, fun k => ?_⟩
  have h := State.permits_sentinel (indexed k) (by rw [indexed_params]; rfl) (indexed k).hl
  simp only [exec, execLdAAtHlInc, State.onRead_eq, h, if_true, indexed]

theorem test_witness_IndexedLoadsAreConsecutive_distinct : 0 < 65535 ∧ 65535 < 65536 := by decide

theorem test_witness_RefusedResult :
    (Instr.refusedEi, (0xFB : Byte)) ∈ ([(.refusedEi, 0xFB), (.refusedUnassigned 0xD3, 0xD3)] : List (Instr × Byte)) := by
  decide

theorem test_witness_CanonicalMemoryIsKept :
    State.reset.inv ∧ (holding [0x22]).inv ∧ (after ((holding [0x22]).setHl 0xC000) fun t => t.mem.length).isSome = true := by
  decide

theorem test_witness_RomAndInputsNeverWritten :
    after ((holding [0x77]).setHl 0x0150) (fun t => t.readByte 0x0150) = some 0x77 := by decide

/-- What each frame speaks of: a register, flags and SP that the instruction does not write, a next state, an address
apart from the one stored to. -/
theorem test_witness_RegisterFrame :
    exec .rlca blank = .next ((blank.putA (Alu.rlca 0x00)).advance 1) ∧ Instr.rlca.writesR8 .b = false ∧
      (Instr.popRr .af).writesR8 .b = false ∧ (Instr.ldAAtHlInc).writesR8 .c = false := ⟨rfl, by decide, by decide, by decide⟩

theorem test_witness_FlagFrame :
    exec .scf blank = .next ((blank.setF (Alu.scf blank.f)).advance 1) ∧ Instr.scf.writesFlags.z = false ∧
      Instr.daa.writesFlags.n = false ∧ Instr.nop.writesFlags.h = false ∧ (Instr.incR8 .b).writesFlags.c = false :=
  ⟨rfl, by decide, by decide, by decide, by decide⟩

theorem test_witness_StatusFrame :
    exec .di blank = .next ((blank.setIme false).advance 1) ∧ Instr.di.writesSp = false ∧
      (Instr.ldRrN16 .hl 0).writesSp = false ∧ (Instr.ldRrN16 .sp 0).writesSp = true :=
  ⟨rfl, by decide, by decide, by decide⟩

theorem test_witness_MemoryFrame :
    (∃ t, exec .ldAtBcA (blank.setBc 0xC000) = .next t) ∧ (blank.setBc 0xC000).storedAt .ldAtBcA = [0xC000] ∧
      samePlace 0xC000 0xC001 = false ∧ (0xC000 : Word) ≠ 0xFF00 ∧ blank.storedAt (.cpAN8 0x00) = [] ∧
      (blank.setSp 0x0000).storedAt (.pushRr .bc) = [0xFFFF, 0xFFFE] :=
  ⟨⟨_, rfl⟩, by decide, by decide, by decide, by decide, by decide⟩

theorem test_witness_PcAdvancesByLength :
    exec (.ldR8N8 .b 0x01) blank = .next ((blank.setR8 .b 0x01).advance 2) ∧ (Instr.ldR8N8 .b 0x01).isControl = false ∧
      (Instr.ldR8N8 .b 0x01).refusedOp = none ∧ blank.firstDenied (.ldR8N8 .b 0x01) = none ∧
      (Instr.ldR8N8 .b 0x01).length = 2 := ⟨rfl, by decide, by decide, by decide, by decide⟩

theorem test_witness_ErrorsArePrecise :
    after (holding [0xD3]) (fun t => t.run) = some (.faulted 0x0150 (.decodeError 0xD3)) ∧
      (holding [0xD3]).params.oobPolicy = .sentinel ∧
      after (strict.setPc 0xA000) (fun t => t.run) = some (.faulted 0xA000 (.outOfBounds 0xA000 .read)) := by decide

theorem test_witness_ImeIsNeverRead :
    after (holding [0xF3]) (fun t => t.ime) = some false ∧ step (blank.setRun .halted) = .fault .halted := ⟨by decide, rfl⟩

/-- A CALL and a RET with the stack at the top of HRAM, and the ends of the three ranges. -/
theorem test_witness_CallThenReturn :
    (∃ t u, exec (.callA16 0x0200) blank = .next t ∧ exec .ret t = .next u) ∧
      (0xFF80 ≤ (blank.sp - 1).toNat ∧ (blank.sp - 1).toNat ≤ 0xFFFE) ∧
      (0xFF80 ≤ (blank.sp - 2).toNat ∧ (blank.sp - 2).toNat ≤ 0xFFFE) ∧
      (∀ sp ∈ ([0x8002, 0xA000, 0xC002, 0xE000, 0xFF82, 0xFFFF] : List Word),
        ((0x8000 ≤ (sp - 1).toNat ∧ (sp - 1).toNat ≤ 0x9FFF) ∨ (0xC000 ≤ (sp - 1).toNat ∧ (sp - 1).toNat ≤ 0xDFFF) ∨
          (0xFF80 ≤ (sp - 1).toNat ∧ (sp - 1).toNat ≤ 0xFFFE)) ∧
        ((0x8000 ≤ (sp - 2).toNat ∧ (sp - 2).toNat ≤ 0x9FFF) ∨ (0xC000 ≤ (sp - 2).toNat ∧ (sp - 2).toNat ≤ 0xDFFF) ∨
          (0xFF80 ≤ (sp - 2).toNat ∧ (sp - 2).toNat ≤ 0xFFFE))) :=
  ⟨⟨_, _, rfl, rfl⟩, by decide, by decide, by simp⟩

theorem test_witness_RenderGivesFramebuffer : blank.params.wf ∧ 255 < 8 * blank.params.mapH ∧ 255 < 8 * blank.params.mapW := by
  decide

end Sys2Proof.Tests
end

section
/-! PROOFS. The statements of spec/10_state.md. `exec_eq` says once how every instruction ends: with the error of its first
denied access, or with `State.effect`, what it writes beside the program counter, and `State.nextPc`. The frames are read off
these two tables. -/

namespace Sys2Proof.Machine

/-! ## How an instruction ends -/

/-- The state after a push that goes through, R121. -/
def State.pushed (s : State) (v : Word) : State :=
  ((s.writeByte (s.sp - 1) (hiByte v)).writeByte (s.sp - 2) (loByte v)).setSp (s.sp - 2)

/-- The word a pop that goes through reads, R122. -/
def State.stackTop (s : State) : Word := wordOf (s.readByte (s.sp + 1)) (s.readByte s.sp)

/-- The memory forms of INC and DEC where their accesses go through, R75 and R76. -/
def State.modifiedAtHl (s : State) (op : Byte → Flags → AluResult) : State :=
  (s.writeByte s.hl (op (s.readByte s.hl) s.f).val).setF (op (s.readByte s.hl) s.f).flags

/-- What an instruction whose data accesses all go through writes, the program counter apart (`exec_eq`). -/
def State.effect (s : State) : Instr → State
  | .ldR8R8 dst src => s.setR8 dst (s.getR8 src)
  | .ldR8AtHl dst => s.setR8 dst (s.readByte s.hl)
  | .ldR8N8 dst n => s.setR8 dst n
  | .incR8 r => (s.setR8 r (Alu.increment (s.getR8 r) s.f).val).setF (Alu.increment (s.getR8 r) s.f).flags
  | .decR8 r => (s.setR8 r (Alu.decrement (s.getR8 r) s.f).val).setF (Alu.decrement (s.getR8 r) s.f).flags
  | .ldRrN16 rr n => s.setPair rr n
  | .incRr rr => s.setPair rr (s.getPair rr + 1)
  | .decRr rr => s.setPair rr (s.getPair rr - 1)
  | .ldAAtBc => s.setA (s.readByte s.bc)
  | .ldAAtDe => s.setA (s.readByte s.de)
  | .ldhAA8 n => s.setA (s.readByte (highPage n))
  | .ldAAtC => s.setA (s.readByte (highPage s.c))
  | .ldAA16 addr => s.setA (s.readByte addr)
  | .ldAAtHlInc => (s.setHl (s.hl + 1)).setA (s.readByte s.hl)
  | .ldAAtHlDec => (s.setHl (s.hl - 1)).setA (s.readByte s.hl)
  | .ldAtHlIncA => (s.writeByte s.hl s.a).setHl (s.hl + 1)
  | .ldAtHlDecA => (s.writeByte s.hl s.a).setHl (s.hl - 1)
  | .ldAtBcA => s.writeByte s.bc s.a
  | .ldAtDeA => s.writeByte s.de s.a
  | .ldAtHlR8 src => s.writeByte s.hl (s.getR8 src)
  | .ldAtHlN8 n => s.writeByte s.hl n
  | .ldhA8A n => s.writeByte (highPage n) s.a
  | .ldAtCA => s.writeByte (highPage s.c) s.a
  | .ldA16A addr => s.writeByte addr s.a
  | .ldA16Sp addr => (s.writeByte addr (loByte s.sp)).writeByte (addr + 1) (hiByte s.sp)
  | .incAtHl => s.modifiedAtHl Alu.increment
  | .decAtHl => s.modifiedAtHl Alu.decrement
  | .addAR8 r => s.putA (Alu.add s.a (s.getR8 r))
  | .addAAtHl => s.putA (Alu.add s.a (s.readByte s.hl))
  | .addAN8 n => s.putA (Alu.add s.a n)
  | .adcAR8 r => s.putA (Alu.adc s.a (s.getR8 r) s.f.c)
  | .adcAAtHl => s.putA (Alu.adc s.a (s.readByte s.hl) s.f.c)
  | .adcAN8 n => s.putA (Alu.adc s.a n s.f.c)
  | .subAR8 r => s.putA (Alu.sub s.a (s.getR8 r))
  | .subAAtHl => s.putA (Alu.sub s.a (s.readByte s.hl))
  | .subAN8 n => s.putA (Alu.sub s.a n)
  | .sbcAR8 r => s.putA (Alu.sbc s.a (s.getR8 r) s.f.c)
  | .sbcAAtHl => s.putA (Alu.sbc s.a (s.readByte s.hl) s.f.c)
  | .sbcAN8 n => s.putA (Alu.sbc s.a n s.f.c)
  | .andAR8 r => s.putA (Alu.and s.a (s.getR8 r))
  | .andAAtHl => s.putA (Alu.and s.a (s.readByte s.hl))
  | .andAN8 n => s.putA (Alu.and s.a n)
  | .xorAR8 r => s.putA (Alu.xor s.a (s.getR8 r))
  | .xorAAtHl => s.putA (Alu.xor s.a (s.readByte s.hl))
  | .xorAN8 n => s.putA (Alu.xor s.a n)
  | .orAR8 r => s.putA (Alu.or s.a (s.getR8 r))
  | .orAAtHl => s.putA (Alu.or s.a (s.readByte s.hl))
  | .orAN8 n => s.putA (Alu.or s.a n)
  | .cpAR8 r => s.setF (Alu.cp s.a (s.getR8 r))
  | .cpAAtHl => s.setF (Alu.cp s.a (s.readByte s.hl))
  | .cpAN8 n => s.setF (Alu.cp s.a n)
  | .daa => s.putA (Alu.daa s.a s.f)
  | .cpl => s.putA (Alu.cpl s.a s.f)
  | .scf => s.setF (Alu.scf s.f)
  | .ccf => s.setF (Alu.ccf s.f)
  | .rlca => s.putA (Alu.rlca s.a)
  | .rrca => s.putA (Alu.rrca s.a)
  | .rla => s.putA (Alu.rla s.a s.f.c)
  | .rra => s.putA (Alu.rra s.a s.f.c)
  | .addHlRr rr => (s.setHl (Alu.addHl s.hl (s.getPair rr))).setF (Alu.addHlFlags s.hl (s.getPair rr) s.f)
  | .addSpE8 e => (s.setSp (Alu.addSp s.sp e)).setF (Alu.addSpFlags s.sp e)
  | .ldHlSpE8 e => (s.setHl (Alu.addSp s.sp e)).setF (Alu.addSpFlags s.sp e)
  | .ldSpHl => s.setSp s.hl
  | .pushRr rr => s.pushed (s.getStackPair rr)
  | .popRr rr => (s.setSp (s.sp + 2)).setStackPair rr s.stackTop
  | .callA16 _ => s.pushed (s.pc + 3)
  | .callCcA16 cc _ => if s.holds cc then s.pushed (s.pc + 3) else s
  | .ret => s.setSp (s.sp + 2)
  | .retCc cc => if s.holds cc then s.setSp (s.sp + 2) else s
  | .di => s.setIme false
  | .halt | .stop _ => s.setRun .halted
  | .nop | .jrE8 _ | .jrCcE8 _ _ | .jpA16 _ | .jpCcA16 _ _ | .jpHl => s
  | .refusedUnassigned op => s.raise (.decodeError op)
  | .refusedCbPrefix => s.raise (.decodeError 0xCB)
  | .refusedReti => s.raise (.decodeError 0xD9)
  | .refusedEi => s.raise (.decodeError 0xFB)
  | .refusedRst00H => s.raise (.decodeError 0xC7)
  | .refusedRst08H => s.raise (.decodeError 0xCF)
  | .refusedRst10H => s.raise (.decodeError 0xD7)
  | .refusedRst18H => s.raise (.decodeError 0xDF)
  | .refusedRst20H => s.raise (.decodeError 0xE7)
  | .refusedRst28H => s.raise (.decodeError 0xEF)
  | .refusedRst30H => s.raise (.decodeError 0xF7)
  | .refusedRst38H => s.raise (.decodeError 0xFF)

/-- The program counter after an instruction whose data accesses all go through: the target of a control transfer, the
opcode itself where it is refused (R140), else the following address (R23). -/
def State.nextPc (s : State) (i : Instr) : Word :=
  match i with
  | .jrE8 e => relTarget (s.pc + 2) e
  | .jrCcE8 cc e => if s.holds cc then relTarget (s.pc + 2) e else s.pc + 2
  | .jpA16 addr | .callA16 addr => addr
  | .jpCcA16 cc addr | .callCcA16 cc addr => if s.holds cc then addr else s.pc + 3
  | .jpHl => s.hl
  | .ret => s.stackTop
  | .retCc cc => if s.holds cc then s.stackTop else s.pc + 1
  | i => if i.refusedOp.isSome then s.pc else s.pc + BitVec.ofNat 16 i.length

/-- The state after an instruction whose data accesses all go through. -/
def State.completed (s : State) (i : Instr) : State := (s.effect i).setPc (s.nextPc i)

/-- The state after an instruction: the error of its first denied access (R141), or all it writes. -/
def State.ending (s : State) (i : Instr) : State :=
  (s.firstDenied i).elim (s.completed i) fun x => s.raise (.outOfBounds x.addr x.kind)

section

variable {s t : State} {i : Instr}

theorem State.ending_of_denied {x : OobAccess} (h : s.firstDenied i = some x) :
    s.ending i = s.raise (.outOfBounds x.addr x.kind) := by
  rw [State.ending, h, Option.elim_some]

theorem State.ending_of_permitted (h : s.firstDenied i = none) : s.ending i = s.completed i := by
  rw [State.ending, h, Option.elim_none]

/-- An instruction without data accesses. -/
theorem State.firstDenied_none (h : s.accesses i = []) : s.firstDenied i = none := by
  rw [State.firstDenied, h, List.find?_nil]

/-- An instruction with one data access. -/
theorem State.firstDenied_one {x : OobAccess} (h : s.accesses i = [x]) :
    s.firstDenied i = if s.permits x.addr then none else some x := by
  cases hp : s.permits x.addr <;> simp [State.firstDenied, h, hp]

/-- An instruction with two data accesses. -/
theorem State.firstDenied_two {x y : OobAccess} (h : s.accesses i = [x, y]) :
    s.firstDenied i = if s.permits x.addr then if s.permits y.addr then none else some y else some x := by
  cases hp : s.permits x.addr <;> cases hq : s.permits y.addr <;> simp [State.firstDenied, h, hp, hq]

theorem State.ending_of_no_access (h : s.accesses i = []) : s.ending i = s.completed i :=
  State.ending_of_permitted (State.firstDenied_none h)

theorem State.ending_of_one_access {x : OobAccess} (h : s.accesses i = [x]) :
    s.ending i = if s.permits x.addr then s.completed i else s.raise (.outOfBounds x.addr x.kind) := by
  rw [State.ending, State.firstDenied_one h]
  split <;> rfl

theorem State.ending_of_two_accesses {x y : OobAccess} (h : s.accesses i = [x, y]) :
    s.ending i =
      if s.permits x.addr then
        if s.permits y.addr then s.completed i else s.raise (.outOfBounds y.addr y.kind)
      else s.raise (.outOfBounds x.addr x.kind) := by
  rw [State.ending, State.firstDenied_two h]
  split
  · split <;> rfl
  · rfl
end

/-! ## The program counter of the tables -/

section

variable (s : State)

@[simp] theorem State.pushed_pc (v : Word) : (s.pushed v).pc = s.pc := by simp [State.pushed]

@[simp] theorem State.modifiedAtHl_pc (op : Byte → Flags → AluResult) : (s.modifiedAtHl op).pc = s.pc := by
  simp [State.modifiedAtHl]

@[simp] theorem State.nextPc_jrCcE8 (cc : Cond) (e : Byte) :
    s.nextPc (.jrCcE8 cc e) = if s.holds cc then relTarget (s.pc + 2) e else s.pc + 2 := rfl

@[simp] theorem State.nextPc_jpCcA16 (cc : Cond) (addr : Word) :
    s.nextPc (.jpCcA16 cc addr) = if s.holds cc then addr else s.pc + 3 := rfl

@[simp] theorem State.nextPc_callCcA16 (cc : Cond) (addr : Word) :
    s.nextPc (.callCcA16 cc addr) = if s.holds cc then addr else s.pc + 3 := rfl

@[simp] theorem State.nextPc_retCc (cc : Cond) :
    s.nextPc (.retCc cc) = if s.holds cc then s.stackTop else s.pc + 1 := rfl

/-- `State.effect` leaves the program counter to `State.nextPc`. -/
@[simp] theorem State.effect_pc (i : Instr) : (s.effect i).pc = s.pc := by
  cases i
  case callCcA16 cc _ | retCc cc => cases h : s.holds cc <;> simp [State.effect, h]
  all_goals simp [State.effect]

/-- R23: without a control transfer or a refused opcode, the following address. -/
theorem State.nextPc_of_not_control {i : Instr} (hc : i.isControl = false) (hr : i.refusedOp = none) :
    s.nextPc i = s.pc + BitVec.ofNat 16 i.length := by
  cases i
  case jrE8 | jrCcE8 | jpA16 | jpCcA16 | jpHl | callA16 | callCcA16 | ret | retCc => cases hc
  case refusedUnassigned | refusedCbPrefix | refusedReti | refusedEi | refusedRst00H | refusedRst08H | refusedRst10H
      | refusedRst18H | refusedRst20H | refusedRst28H | refusedRst30H | refusedRst38H => cases hr
  all_goals rfl

theorem State.completed_eq_advance {i : Instr} (hc : i.isControl = false) (hr : i.refusedOp = none) :
    s.completed i = (s.effect i).advance (BitVec.ofNat 16 i.length) := by
  rw [State.completed, State.nextPc_of_not_control s hc hr, State.advance, State.effect_pc]

end

/-! ## Every instruction ends so -/

/-- How an instruction ends whose shared operation makes two accesses. -/
theorem State.finish_two_accesses {α : Type} (s : State) (p q : Bool) (r : α) (x y : OobAccess) (k : α → State) :
    s.finish ((if p then if q then Except.ok r else .error y else .error x) >>= fun a => pure (k a)) =
      .next (if p then if q then k r else s.raise (.outOfBounds y.addr y.kind)
        else s.raise (.outOfBounds x.addr x.kind)) := by
  cases p
  · rfl
  · cases q <;> rfl

/-- Every instruction ends as the tables say: with the error of its first denied access, or completed. -/
theorem exec_eq (i : Instr) (s : State) : exec i s = .next (s.ending i) := by
  cases i
  case addAAtHl | adcAAtHl | subAAtHl | sbcAAtHl | andAAtHl | xorAAtHl | orAAtHl | cpAAtHl | ldAAtBc | ldAAtDe
      | ldhAA8 | ldAAtC | ldAA16 | ldAAtHlInc | ldAAtHlDec | ldR8AtHl =>
    rw [State.ending_of_one_access rfl, State.completed_eq_advance s rfl rfl]
    exact State.onRead_eq s _ _
  case ldAtBcA | ldAtDeA | ldAtHlN8 | ldAtHlR8 | ldhA8A | ldAtCA | ldA16A | ldAtHlIncA | ldAtHlDecA =>
    rw [State.ending_of_one_access rfl, State.completed_eq_advance s rfl rfl]
    exact State.onWrite_eq s _ _ _
  case incAtHl | decAtHl =>
    rw [State.ending_of_two_accesses rfl, State.completed_eq_advance s rfl rfl]
    refine (State.modifyAtHl_eq s _).trans ?_
    by_cases h : s.permits s.hl = true <;> simp only [h, if_true] <;> rfl
  case ldA16Sp addr =>
    rw [State.ending_of_two_accesses rfl, State.completed_eq_advance s rfl rfl]
    simp only [exec, execLdA16Sp, State.busWrite16_eq]
    exact State.finish_two_accesses s _ _ _ _ _ _
  case pushRr rr =>
    rw [State.ending_of_two_accesses rfl, State.completed_eq_advance s rfl rfl]
    simp only [exec, execPushRr, State.push_eq]
    exact State.finish_two_accesses s _ _ _ _ _ _
  case popRr rr =>
    rw [State.ending_of_two_accesses rfl, State.completed_eq_advance s rfl rfl]
    simp only [exec, execPopRr, State.pop_eq]
    exact State.finish_two_accesses s _ _ _ _ _ _
  case callA16 addr =>
    rw [State.ending_of_two_accesses rfl]
    exact State.call_eq s addr
  case ret =>
    rw [State.ending_of_two_accesses rfl]
    exact State.popPc_eq s
  case callCcA16 cc addr =>
    cases h : s.holds cc
    · have ha : s.accesses (.callCcA16 cc addr) = [] := by simp [State.accesses, h]
      rw [State.ending_of_no_access ha]
      simp [exec, execCallCcA16, State.completed, State.effect, h, State.advance]
    · have ha : s.accesses (.callCcA16 cc addr) = s.accesses (.callA16 addr) := by simp [State.accesses, h]
      rw [State.ending_of_two_accesses ha]
      simp [exec, execCallCcA16, State.completed, State.effect, h, State.call_eq, State.pushed]
  case retCc cc =>
    cases h : s.holds cc
    · have ha : s.accesses (.retCc cc) = [] := by simp [State.accesses, h]
      rw [State.ending_of_no_access ha]
      simp [exec, execRetCc, State.completed, State.effect, h, State.advance]
    · have ha : s.accesses (.retCc cc) = s.accesses .ret := by simp [State.accesses, h]
      rw [State.ending_of_two_accesses ha]
      simp [exec, execRetCc, State.completed, State.effect, h, State.popPc_eq, State.stackTop]
  case jrCcE8 cc _ | jpCcA16 cc _ =>
    rw [State.ending_of_no_access rfl]
    cases h : s.holds cc <;>
      simp [exec, execJrCcE8, execJpCcA16, State.completed, State.effect, h, State.advance]
  case jrE8 | jpA16 | jpHl | refusedUnassigned | refusedCbPrefix | refusedReti | refusedEi | refusedRst00H
      | refusedRst08H | refusedRst10H | refusedRst18H | refusedRst20H | refusedRst28H | refusedRst30H | refusedRst38H =>
    rw [State.ending_of_no_access rfl]
    rfl
  all_goals
    rw [State.ending_of_no_access rfl, State.completed_eq_advance s rfl rfl]
    rfl

/-- Everything an instruction that gives a next state can have done. -/
theorem exec_next {i : Instr} {s t : State} (h : exec i s = .next t) :
    (∃ x, s.firstDenied i = some x ∧ t = s.raise (.outOfBounds x.addr x.kind)) ∨
      (s.firstDenied i = none ∧ t = s.completed i) := by
  rw [exec_eq] at h
  injection h with h
  cases hd : s.firstDenied i with
  | some x => exact .inl ⟨x, rfl, h.symm.trans (State.ending_of_denied hd)⟩
  | none => exact .inr ⟨rfl, h.symm.trans (State.ending_of_permitted hd)⟩

/-! ## What the tables leave unchanged -/

section

variable (s : State)

/-- No instruction writes the parameters or what the host gives, R152 and log entries 1 and 2. -/
theorem State.effect_params_joypad_inputs (i : Instr) :
    (s.effect i).params = s.params ∧ (s.effect i).joypad = s.joypad ∧ (s.effect i).inputs = s.inputs := by
  cases i
  case callCcA16 cc _ | retCc cc => cases h : s.holds cc <;> simp [State.effect, State.pushed, h]
  all_goals simp [State.effect, State.pushed, State.modifiedAtHl]

/-- IME is written by DI alone, R24. -/
theorem State.effect_ime (i : Instr) : (s.effect i).ime = if i = .di then false else s.ime := by
  cases i
  case callCcA16 cc _ | retCc cc => cases h : s.holds cc <;> simp [State.effect, State.pushed, h]
  all_goals simp [State.effect, State.pushed, State.modifiedAtHl]

/-- SP is written by the instructions of R22 alone. -/
theorem State.effect_sp {i : Instr} (h : i.writesSp = false) : (s.effect i).sp = s.sp := by
  cases i
  case ldRrN16 rr _ | incRr rr | decRr rr =>
    cases rr
    case sp => cases h
    all_goals rfl
  case ldSpHl | addSpE8 | pushRr | popRr | callA16 | callCcA16 | ret | retCc => cases h
  all_goals simp [State.effect, State.modifiedAtHl]

/-- The run state is written by HALT, STOP and the refused opcodes alone, R25. -/
theorem State.effect_run (i : Instr) :
    (s.effect i).run = s.run ∨ ((s.effect i).run = .halted ∧ (i = .halt ∨ ∃ n, i = .stop n)) ∨
      ∃ op, i.refusedOp = some op ∧ (s.effect i).run = .faulted s.pc (.decodeError op) := by
  cases i
  case halt => exact .inr (.inl ⟨rfl, .inl rfl⟩)
  case stop n => exact .inr (.inl ⟨rfl, .inr ⟨n, rfl⟩⟩)
  case refusedUnassigned | refusedCbPrefix | refusedReti | refusedEi | refusedRst00H | refusedRst08H | refusedRst10H
      | refusedRst18H | refusedRst20H | refusedRst28H | refusedRst30H | refusedRst38H =>
    exact .inr (.inr ⟨_, rfl, rfl⟩)
  case callCcA16 cc _ | retCc cc =>
    refine .inl ?_
    cases h : s.holds cc <;> simp [State.effect, State.pushed, h]
  all_goals exact .inl (by simp [State.effect, State.pushed, State.modifiedAtHl])

/-- A general register is written only by the instructions whose row of R18 names it. -/
theorem State.effect_getR8 {i : Instr} {r : R8} (h : i.writesR8 r = false) : (s.effect i).getR8 r = s.getR8 r := by
  cases i
  case ldR8R8 | ldR8AtHl | ldR8N8 | incR8 | decR8 =>
    have hr := ne_of_beq_false h
    simp only [State.effect, State.getR8_setF, State.getR8_setR8_ne s _ hr]
  case addAR8 | adcAR8 | subAR8 | sbcAR8 | andAR8 | xorAR8 | orAR8 | addAAtHl | adcAAtHl | subAAtHl | sbcAAtHl
      | andAAtHl | xorAAtHl | orAAtHl | addAN8 | adcAN8 | subAN8 | sbcAN8 | andAN8 | xorAN8 | orAN8 | rlca | rrca | rla
      | rra | daa | cpl =>
    exact State.getR8_putA_ne s _ (ne_of_beq_false h)
  case ldAAtBc | ldAAtDe | ldhAA8 | ldAAtC | ldAA16 => exact State.getR8_setA_ne s _ (ne_of_beq_false h)
  case ldAAtHlInc | ldAAtHlDec =>
    obtain ⟨⟨ha, hh⟩, hl⟩ : (r ≠ .a ∧ r ≠ .h) ∧ r ≠ .l := by simpa [Instr.writesR8] using h
    simp only [State.effect, State.getR8_setA_ne _ _ ha, State.getR8_setHl_ne s _ hh hl]
  case ldAtHlIncA | ldAtHlDecA | addHlRr | ldHlSpE8 =>
    obtain ⟨hh, hl⟩ : r ≠ .h ∧ r ≠ .l := by simpa [Instr.writesR8] using h
    simp only [State.effect, State.getR8_setF, State.getR8_setHl_ne _ _ hh hl, State.getR8_writeByte]
  case ldRrN16 rr _ | incRr rr | decRr rr => exact State.getR8_setPair_ne s rr _ h
  case popRr rr => exact (State.getR8_setStackPair_ne _ rr _ h).trans (State.getR8_setSp s _ r)
  case callCcA16 cc _ | retCc cc => cases hc : s.holds cc <;> simp [State.effect, State.pushed, hc]
  all_goals simp [State.effect, State.pushed, State.modifiedAtHl]

/-- A flag is written only by the instructions whose row of R21 names it. -/
theorem State.effect_flags (i : Instr) :
    (i.writesFlags.z = false → (s.effect i).f.z = s.f.z) ∧ (i.writesFlags.n = false → (s.effect i).f.n = s.f.n) ∧
      (i.writesFlags.h = false → (s.effect i).f.h = s.f.h) ∧ (i.writesFlags.c = false → (s.effect i).f.c = s.f.c) := by
  cases i
  case incR8 | incAtHl => simp [State.effect, State.modifiedAtHl, Instr.writesFlags, Alu.increment]
  case decR8 | decAtHl => simp [State.effect, State.modifiedAtHl, Instr.writesFlags, Alu.decrement]
  case addHlRr => simp [State.effect, Instr.writesFlags, Alu.addHlFlags]
  case scf | ccf => simp [State.effect, Instr.writesFlags, Alu.scf, Alu.ccf]
  case daa => simp [State.effect, Instr.writesFlags, Alu.daa]
  case cpl => simp [State.effect, Instr.writesFlags, Alu.cpl]
  case popRr rr => cases rr <;> simp [State.effect, Instr.writesFlags, State.setStackPair]
  case callCcA16 cc _ | retCc cc => cases h : s.holds cc <;> simp [State.effect, State.pushed, h]
  case addAR8 | adcAR8 | subAR8 | sbcAR8 | andAR8 | xorAR8 | orAR8 | cpAR8 | addAAtHl | adcAAtHl | subAAtHl | sbcAAtHl
      | andAAtHl | xorAAtHl | orAAtHl | cpAAtHl | addAN8 | adcAN8 | subAN8 | sbcAN8 | andAN8 | xorAN8 | orAN8 | cpAN8
      | rlca | rrca | rla | rra | addSpE8 | ldHlSpE8 => simp [Instr.writesFlags]
  all_goals simp [State.effect, State.pushed]

end

/-! ## IME is not read -/

section

variable (s : State) (b : Bool)

@[simp] theorem State.setIme_bc : (s.setIme b).bc = s.bc := rfl
@[simp] theorem State.setIme_de : (s.setIme b).de = s.de := rfl
@[simp] theorem State.setIme_hl : (s.setIme b).hl = s.hl := rfl
@[simp] theorem State.setIme_stackTop : (s.setIme b).stackTop = s.stackTop := rfl

@[simp] theorem State.setIme_getPair (rr : Pair) : (s.setIme b).getPair rr = s.getPair rr := by cases rr <;> rfl

@[simp] theorem State.setIme_getStackPair (rr : StackPair) : (s.setIme b).getStackPair rr = s.getStackPair rr := by
  cases rr <;> rfl

@[simp] theorem State.setIme_holds (cc : Cond) : (s.setIme b).holds cc = s.holds cc := by cases cc <;> rfl

theorem State.writeByte_setIme (x : Word) (v : Byte) :
    (s.setIme b).writeByte x v = (s.writeByte x v).setIme b := by
  unfold State.writeByte
  cases region x <;> rfl

theorem State.setR8_setIme (r : R8) (v : Byte) : (s.setIme b).setR8 r v = (s.setR8 r v).setIme b := by cases r <;> rfl

theorem State.setPair_setIme (rr : Pair) (v : Word) : (s.setIme b).setPair rr v = (s.setPair rr v).setIme b := by
  cases rr <;> rfl

theorem State.setStackPair_setIme (rr : StackPair) (v : Word) :
    (s.setIme b).setStackPair rr v = (s.setStackPair rr v).setIme b := by
  cases rr <;> rfl

theorem State.accesses_setIme (i : Instr) : (s.setIme b).accesses i = s.accesses i := by
  cases i
  case callCcA16 cc _ | retCc cc => cases cc <;> rfl
  all_goals rfl

theorem State.firstDenied_setIme (i : Instr) : (s.setIme b).firstDenied i = s.firstDenied i := by
  unfold State.firstDenied
  rw [State.accesses_setIme]
  rfl

theorem State.nextPc_setIme (i : Instr) : (s.setIme b).nextPc i = s.nextPc i := by
  cases i
  case callCcA16 cc _ | retCc cc | jpCcA16 cc _ | jrCcE8 cc _ => cases cc <;> rfl
  all_goals rfl

theorem State.pushed_setIme (v : Word) : (s.setIme b).pushed v = (s.pushed v).setIme b := by
  simp only [State.pushed, State.setIme_sp, State.writeByte_setIme]
  rfl

theorem State.modifiedAtHl_setIme (op : Byte → Flags → AluResult) :
    (s.setIme b).modifiedAtHl op = (s.modifiedAtHl op).setIme b := by
  simp only [State.modifiedAtHl, State.setIme_hl, State.setIme_readByte, State.setIme_f, State.writeByte_setIme]
  rfl

theorem State.setA_setIme (v : Byte) : (s.setIme b).setA v = (s.setA v).setIme b := rfl
theorem State.setF_setIme (v : Flags) : (s.setIme b).setF v = (s.setF v).setIme b := rfl
theorem State.setSp_setIme (v : Word) : (s.setIme b).setSp v = (s.setSp v).setIme b := rfl
theorem State.setHl_setIme (v : Word) : (s.setIme b).setHl v = (s.setHl v).setIme b := rfl
theorem State.setRun_setIme (v : RunState) : (s.setIme b).setRun v = (s.setRun v).setIme b := rfl
theorem State.putA_setIme (r : AluResult) : (s.setIme b).putA r = (s.putA r).setIme b := rfl
theorem State.raise_setIme (x : FaultInfo) : (s.setIme b).raise x = (s.raise x).setIme b := rfl

theorem State.effect_setIme {i : Instr} (h : i ≠ .di) : (s.setIme b).effect i = (s.effect i).setIme b := by
  cases i
  case di => exact absurd rfl h
  case callCcA16 cc _ | retCc cc =>
    cases hc : s.holds cc <;> simp [State.effect, State.pushed_setIme, State.setSp_setIme, hc]
  all_goals
    simp [State.effect, State.setA_setIme, State.setF_setIme, State.setSp_setIme, State.setHl_setIme, State.setRun_setIme,
      State.putA_setIme, State.raise_setIme, State.setR8_setIme, State.setPair_setIme, State.setStackPair_setIme,
      State.writeByte_setIme, State.pushed_setIme, State.modifiedAtHl_setIme]

/-- An instruction ends alike whatever IME is, but for IME. -/
theorem State.ending_setIme (i : Instr) : ∃ b', (s.setIme b).ending i = (s.ending i).setIme b' := by
  cases hd : s.firstDenied i with
  | some x =>
    rw [State.ending_of_denied hd, State.ending_of_denied ((State.firstDenied_setIme s b i).trans hd)]
    exact ⟨b, rfl⟩
  | none =>
    rw [State.ending_of_permitted hd, State.ending_of_permitted ((State.firstDenied_setIme s b i).trans hd),
      State.completed, State.completed, State.nextPc_setIme]
    by_cases h : i = .di
    · subst h
      exact ⟨false, rfl⟩
    · rw [State.effect_setIme s b h]
      exact ⟨b, rfl⟩

theorem exec_setIme {s t : State} {i : Instr} (h : exec i s = .next t) :
    ∃ b', exec i (s.setIme b) = .next (t.setIme b') := by
  rw [exec_eq] at h ⊢
  injection h with h
  obtain ⟨b', hb⟩ := State.ending_setIme s b i
  exact ⟨b', by rw [hb, h]⟩

theorem step_of_fetch_ok {s : State} {i : Instr} (hr : s.run = .running) (hf : s.drawInput.fetch = .ok i) :
    step s = exec i s.drawInput := by
  rw [step_running s hr, hf]

theorem step_of_fetch_error {s : State} {x : OobAccess} (hr : s.run = .running) (hf : s.drawInput.fetch = .error x) :
    step s = .next (s.drawInput.raise (.outOfBounds x.addr x.kind)) := by
  rw [step_running s hr, hf]

/-- A step answers alike whatever IME is, but for IME. -/
theorem step_setIme {s t : State} (h : step s = .next t) : ∃ b', step (s.setIme b) = .next (t.setIme b') := by
  obtain ⟨hr, ⟨i, hf, he⟩ | ⟨x, hf, rfl⟩⟩ := step_next s h
  · obtain ⟨b', hb⟩ := exec_setIme b he
    exact ⟨b', (step_of_fetch_ok (s := s.setIme b) hr hf).trans hb⟩
  · exact ⟨b, step_of_fetch_error (s := s.setIme b) hr hf⟩

theorem step_halted {s : State} (h : s.run = .halted) : step s = .fault .halted := by rw [step, h]

theorem step_faulted {s : State} {pc : Word} {info : FaultInfo} (h : s.run = .faulted pc info) :
    step s = .fault (.faulted pc info) := by
  rw [step, h]

theorem step_running_ne_fault {s : State} (h : s.run = .running) (r : Fault) : step s ≠ .fault r := by
  cases hf : s.drawInput.fetch with
  | ok i => rw [step_of_fetch_ok h hf, exec_eq]; nofun
  | error x => rw [step_of_fetch_error h hf]; nofun

/-- A step that is a stop is the same stop whatever IME is. -/
theorem step_setIme_of_fault {s : State} {r : Fault} (h : step s = .fault r) : step (s.setIme b) = .fault r := by
  cases hr : s.run with
  | running => exact absurd h (step_running_ne_fault hr r)
  | halted => rw [← h, step_halted hr, step_halted (s := s.setIme b) hr]
  | faulted pc info => rw [← h, step_faulted hr, step_faulted (s := s.setIme b) hr]

end

end Sys2Proof.Machine

namespace Sys2Proof

/-! ## The length of a decoded instruction -/

/-- Every instruction of an opcode's form is as long as the form, R60. -/
def OpForm.KeepsLength : OpForm → Prop
  | .f1 i => i.length = 1
  | .f2 k => ∀ n, (k n).length = 2
  | .f3 k => ∀ n, (k n).length = 3

theorem keepsLength_formR8 {reg : R8 → OpForm} {atHl : OpForm} (hr : ∀ r, (reg r).KeepsLength) (hm : atHl.KeepsLength)
    (code : Nat) : (formR8 code reg atHl).KeepsLength := by
  unfold formR8
  split
  · exact hr _
  · exact hm

theorem keepsLength_decodeBlock0 (y z : Nat) : (decodeBlock0 y z).KeepsLength := by
  unfold decodeBlock0
  split
  case h_5 | h_6 | h_7 => apply keepsLength_formR8 <;> simp [OpForm.KeepsLength, Instr.length, encode]
  all_goals split <;> simp [OpForm.KeepsLength, Instr.length, encode]

theorem keepsLength_decodeBlock1 (y z : Nat) : (decodeBlock1 y z).KeepsLength := by
  unfold decodeBlock1
  split <;> rfl

theorem keepsLength_decodeBlock2 (y z : Nat) : (decodeBlock2 y z).KeepsLength := by
  unfold decodeBlock2
  split <;> exact keepsLength_formR8 (by intro; rfl) (by rfl) z

theorem keepsLength_decodeBlock3 (op : Byte) (y z : Nat) : (decodeBlock3 op y z).KeepsLength := by
  unfold decodeBlock3
  split <;> split <;> simp [OpForm.KeepsLength, Instr.length, encode]

theorem keepsLength_decodeOpcode (op : Byte) : (decodeOpcode op).KeepsLength := by
  unfold decodeOpcode
  split
  · exact keepsLength_decodeBlock0 _ _
  · exact keepsLength_decodeBlock1 _ _
  · exact keepsLength_decodeBlock2 _ _
  · exact keepsLength_decodeBlock3 _ _ _

namespace Machine

/-- Where the bytes at pc decode and as many as the instruction is long can be read, the fetch gives the instruction. -/
theorem State.fetch_of_decode {s : State} {i : Instr} {rest : List Byte}
    (hd : decode [s.readByte s.pc, s.readByte (s.pc + 1), s.readByte (s.pc + 2)] = .ok (i, rest))
    (hp : ∀ k : Nat, k < i.length → s.permits (s.pc + BitVec.ofNat 16 k) = true) : s.fetch = .ok i := by
  obtain ⟨op, tl, hb, hform⟩ := decode_ok hd
  injection hb with hop htl
  subst hop htl
  have hl := keepsLength_decodeOpcode (s.readByte s.pc)
  have hp0 : 0 < i.length → s.permits s.pc = true := fun h => by simpa using hp 0 h
  have hp1 : 1 < i.length → s.permits (s.pc + 1) = true := hp 1
  have hp2 : 2 < i.length → s.permits (s.pc + 2) = true := hp 2
  rw [State.fetch_eq]
  obtain ⟨hf, -⟩ | ⟨k, n, hf, ht, rfl⟩ | ⟨k, lo, hi, hf, ht, rfl⟩ := hform
  · rw [hf] at hl ⊢
    have hlen : i.length = 1 := hl
    rw [if_pos (hp0 (by omega))]
  · rw [hf] at hl ⊢
    have hlen : (k n).length = 2 := hl n
    injection ht with hn
    simp only [hp0 (by omega), hp1 (by omega), if_true, hn]
  · rw [hf] at hl ⊢
    have hlen : (k (wordOf hi lo)).length = 3 := hl _
    injection ht with hlo ht
    injection ht with hhi
    simp only [hp0 (by omega), hp1 (by omega), hp2 (by omega), if_true, hlo, hhi]

/-! ## Flags, pairs and reset -/

theorem hiByte_eq_ofNat (v : Word) : hiByte v = BitVec.ofNat 8 (v.toNat / 256) := by
  rw [← toNat_hiByte, BitVec.ofNat_toNat, BitVec.setWidth_eq]

theorem loByte_eq_ofNat (v : Word) : loByte v = BitVec.ofNat 8 (v.toNat % 256) := by
  rw [← toNat_loByte, BitVec.ofNat_toNat, BitVec.setWidth_eq]

/-- The four live bits of a word's low byte, R19 and R20. -/
theorem flagsOfByte_loByte (v : Word) :
    flagsOfByte (loByte v) = { z := v.getLsbD 7, n := v.getLsbD 6, h := v.getLsbD 5, c := v.getLsbD 4 } := by
  simp [flagsOfByte, loByte]

/-- F as a number, R20. -/
theorem Flags.toNat_toByte (f : Flags) :
    f.toByte.toNat = 128 * f.z.toNat + 64 * f.n.toNat + 32 * f.h.toNat + 16 * f.c.toNat := by
  obtain ⟨z, n, h, c⟩ := f
  revert z n h c
  decide

theorem flagsOfByte_toByte (f : Flags) : flagsOfByte f.toByte = f := by
  obtain ⟨z, n, h, c⟩ := f
  revert z n h c
  decide

/-- A byte written to F keeps its bits 7..4, R20. -/
theorem toByte_flagsOfByte (v : Byte) : (flagsOfByte v).toByte = v &&& 0xF0 := by
  revert v
  decide

/-- With the decided parameters and no image every cell reads as unlisted, so storage lists nothing. -/
theorem storage_decided_empty : Params.storage Params.decided (Params.romByte Params.decided []) = [] := by
  refine Memory.build_unlisted _ fun a => ?_
  by_cases h : a < 0x8000 <;>
    simp [Params.romByte, Params.decided, Memory.read, Memory.unlisted, h]

end Machine

end Sys2Proof

namespace Sys2Proof.Proofs

open Sys2Proof.Machine

/-! ## The statements -/

/-- Settles O52, from the inversion of `exec`: a denied access writes no register, and `State.effect` only those named. -/
theorem registerFrame : Obligations.RegisterFrame := by
  intro i s t r h hw
  obtain ⟨x, -, rfl⟩ | ⟨-, rfl⟩ := exec_next h
  · exact State.getR8_raise s _ r
  · exact (State.getR8_setPc _ _ r).trans (State.effect_getR8 s hw)

/-- Settles O53: a denied access writes no flag, and `State.effect` only those named. -/
theorem flagFrame : Obligations.FlagFrame := by
  intro i s t h
  obtain ⟨x, -, rfl⟩ | ⟨-, rfl⟩ := exec_next h
  · simp
  · exact State.effect_flags s i

/-- Settles O54: the parts are the lemmas on `State.effect`, and a denied access is the last case of the run state. -/
theorem statusFrame : Obligations.StatusFrame := by
  intro i s t h
  obtain ⟨x, hx, rfl⟩ | ⟨-, rfl⟩ := exec_next h
  · exact ⟨fun _ => rfl, .inl rfl, .inr (.inr (.inr ⟨x, hx, rfl⟩)), rfl, rfl, rfl⟩
  · refine ⟨fun hw => State.effect_sp s hw, ?_, ?_, State.effect_params_joypad_inputs s i⟩
    · have hime : (s.completed i).ime = if i = .di then false else s.ime := State.effect_ime s i
      by_cases hi : i = .di
      · exact .inr ⟨hi, by rw [hime, if_pos hi]⟩
      · exact .inl (by rw [hime, if_neg hi])
    · obtain hr | hr | hr := State.effect_run s i
      · exact .inl hr
      · exact .inr (.inl hr)
      · exact .inr (.inr (.inl hr))

/-- Settles O56: without a denied access the instruction is completed, and `State.nextPc` is the following address. -/
theorem pcAdvancesByLength : Obligations.PcAdvancesByLength := by
  intro i s t h hc hr hd
  obtain ⟨x, hx, -⟩ | ⟨-, rfl⟩ := exec_next h
  · rw [hd] at hx
    cases hx
  · exact State.nextPc_of_not_control s hc hr

/-- Settles O58: fetching, the accesses and both tables of an instruction are the same whatever IME is. -/
theorem imeIsNeverRead : Obligations.ImeIsNeverRead :=
  fun _ b => ⟨fun _ h => step_setIme b h, fun _ h => step_setIme_of_fault b h⟩

/-- Settles O6: the fetch gives the decoded instruction. -/
theorem stepRunsDecodedInstruction : Obligations.StepRunsDecodedInstruction := by
  refine ⟨?_, fun _ h => State.drawInput_eq_self h, ?_⟩
  · rintro s u i rest hr rfl hd hp
    exact step_of_fetch_ok hr (State.fetch_of_decode hd hp)
  · intro s j js h
    rw [State.drawInput, h, List.headD_cons, List.tail_cons]

/-- Settles O8: a terminal CPU's step is a stop, and `Params.afterReset` is Running. -/
theorem onlyResetLeavesTerminal : Obligations.OnlyResetLeavesTerminal := by
  refine ⟨fun _ h => step_halted h, fun _ _ _ h => step_faulted h, ?_, fun _ => rfl, ?_⟩
  · intro s h
    refine ⟨?_, fun _ => rfl⟩
    cases hr : s.run with
    | running => exact absurd hr h
    | halted => rw [State.perform, step_halted hr]
    | faulted pc info => rw [State.perform, step_faulted hr]
  · intro s t image h
    obtain ⟨-, -, rfl⟩ := State.load_ok s h
    rfl

/-- Settles O11, from the halves of a word and their bits. -/
theorem registerFile : Obligations.RegisterFile := by
  refine ⟨fun s => ?_, fun s v => ?_, fun s r v => ?_, fun s v => ?_⟩
  · exact ⟨toNat_wordOf _ _, toNat_wordOf _ _, toNat_wordOf _ _, toNat_wordOf _ _⟩
  · rw [← hiByte_eq_ofNat, ← loByte_eq_ofNat, ← flagsOfByte_loByte]
    exact ⟨rfl, rfl, rfl, rfl⟩
  · exact ⟨State.getR8_setR8 s r v, fun q hq => State.getR8_setR8_ne s v hq⟩
  · exact ⟨rfl, rfl, rfl, rfl, rfl, rfl, rfl⟩

/-- Settles O12: the two directions between F and its byte. -/
theorem flagsRegisterByte : Obligations.FlagsRegisterByte :=
  ⟨Flags.toNat_toByte, toByte_flagsOfByte, flagsOfByte_toByte⟩

/-- Settles O14: the empty image is not too long, and the storage it gives lists nothing. -/
theorem resetStateValues : Obligations.ResetStateValues := by
  refine ⟨rfl, by decide, rfl, rfl, rfl, rfl, rfl, rfl, rfl, rfl, rfl, rfl, rfl, rfl, ?_⟩
  intro s hp hj hi
  have hw : s.params.wf := by rw [hp]; decide
  rw [State.load_wf s hw (Nat.zero_le _), hp, hj, hi, storage_decided_empty]
  rfl

/-- Settles O50: an empty list is in canonical form. -/
theorem resetMemoryIsCanonical : Obligations.ResetMemoryIsCanonical :=
  ⟨List.Pairwise.nil, fun _ h => absurd h List.not_mem_nil⟩

end Sys2Proof.Proofs
end

section
/-! PROOFS. The statements of spec/20_memory.md. `State.effect_stores` says once which bus writes an instruction makes, at the
addresses `State.storedAt` lists, and `step_mem` that a step changes storage by bus writes alone. The frame, the canonical
form and the untouched ROM are read off these two. -/

namespace Sys2Proof.Machine

/-! ## The address map, by ranges -/

/-- The four RAM regions of R33 that have storage, echo apart. -/
theorem region_of_ram {a : Word}
    (h : (0x8000 ≤ a.toNat ∧ a.toNat ≤ 0x9FFF) ∨ (0xC000 ≤ a.toNat ∧ a.toNat ≤ 0xDFFF) ∨
      (0xFE00 ≤ a.toNat ∧ a.toNat ≤ 0xFE9F) ∨ (0xFF80 ≤ a.toNat ∧ a.toNat ≤ 0xFFFE)) :
    region a = .vram ∨ region a = .wram ∨ region a = .oam ∨ region a = .hram := by
  obtain ⟨h₁, h₂⟩ | ⟨h₁, h₂⟩ | ⟨h₁, h₂⟩ | ⟨h₁, h₂⟩ := h
  · exact .inl (regionAt_vram h₁ (Nat.lt_succ_of_le h₂))
  · exact .inr (.inl (regionAt_wram h₁ (Nat.lt_succ_of_le h₂)))
  · exact .inr (.inr (.inl (regionAt_oam h₁ (Nat.lt_succ_of_le h₂))))
  · exact .inr (.inr (.inr (regionAt_hram h₁ (Nat.lt_succ_of_le h₂))))

/-- The out-of-bounds ranges of R36, R40 and R42. -/
theorem region_outOfBounds {a : Word}
    (h : (0xA000 ≤ a.toNat ∧ a.toNat ≤ 0xBFFF) ∨ (0xFEA0 ≤ a.toNat ∧ a.toNat ≤ 0xFEFF) ∨
      (0xFF01 ≤ a.toNat ∧ a.toNat ≤ 0xFF7F) ∨ a.toNat = 0xFFFF) : (region a).outOfBounds = true := by
  unfold region
  obtain ⟨h₁, h₂⟩ | ⟨h₁, h₂⟩ | ⟨h₁, h₂⟩ | h := h
  · rw [regionAt_cartRam h₁ (Nat.lt_succ_of_le h₂)]; rfl
  · rw [regionAt_unusable h₁ (Nat.lt_succ_of_le h₂)]; rfl
  · rw [regionAt_unimplementedIo h₁ (Nat.lt_succ_of_le h₂)]; rfl
  · rw [regionAt_interruptEnable (Nat.le_of_eq h.symm)]; rfl

/-- The WRAM address an echo access goes to, R38. -/
theorem region_sub_of_echo {a : Word} (h : region a = .echo) : region (a - 0x2000) = .wram := by
  have hr := region_echo h
  exact regionAt_wram (by bv_omega) (by bv_omega)

/-! ## A byte at an address, by what the address reaches -/

section

variable (s : State) {a : Word}

theorem State.readByte_of_cell {k : Nat} (h : cellOf a = some k) : s.readByte a = Memory.read s.mem k := by
  rw [State.readByte_eq, h]

/-- A write to a storage cell outside ROM stores the byte there and changes nothing else, R37, R38 and R43. -/
theorem State.writeByte_of_cell {k : Nat} (h : cellOf a = some k) (hr : region a ≠ .rom) (v : Byte) :
    s.writeByte a v = { s with mem := Memory.write s.mem k v } := by
  unfold State.writeByte
  unfold cellOf at h
  cases e : region a <;> simp only [e] at h <;> cases h
  case rom => exact absurd e hr
  all_goals rfl

theorem State.writeByte_of_rom (h : region a = .rom) (v : Byte) : s.writeByte a v = s := by
  rw [State.writeByte, h]

theorem State.readByte_of_outOfBounds (h : (region a).outOfBounds = true) : s.readByte a = s.params.oobSentinel := by
  unfold State.readByte
  cases e : region a
  case cartRam | unusable | unimplementedIo | interruptEnable => rfl
  all_goals simp [e, Region.outOfBounds] at h

theorem State.writeByte_of_outOfBounds (h : (region a).outOfBounds = true) (v : Byte) : s.writeByte a v = s := by
  unfold State.writeByte
  cases e : region a
  case cartRam | unusable | unimplementedIo | interruptEnable => rfl
  all_goals simp [e, Region.outOfBounds] at h

theorem State.not_permits_of_outOfBounds (hf : s.params.oobPolicy = .fault) (h : (region a).outOfBounds = true) :
    ¬s.permits a = true := by
  simp [State.permits, hf, h]

theorem State.busRead_of_permits (h : s.permits a = true) : s.busRead a = .ok (s.readByte a) := by
  rw [State.busRead_eq, if_pos h]

theorem State.busWrite_of_permits (h : s.permits a = true) (v : Byte) : s.busWrite a v = .ok (s.writeByte a v) := by
  rw [State.busWrite_eq, if_pos h]

/-- Everything a bus write that goes through says. -/
theorem State.busWrite_ok {t : State} {v : Byte} (h : s.busWrite a v = .ok t) :
    s.permits a = true ∧ t = s.writeByte a v := by
  rw [State.busWrite_eq] at h
  split at h
  · next hp => exact ⟨hp, (Except.ok.inj h).symm⟩
  · cases h

/-- A bus write touches storage and the select bits only, R50. -/
theorem State.writeByte_frame (x : Word) (v : Byte) :
    s.writeByte x v = { s with
      mem := (s.writeByte x v).mem, p15 := (s.writeByte x v).p15, p14 := (s.writeByte x v).p14 } := by
  unfold State.writeByte
  cases region x <;> rfl

/-- The select bits are written at the joypad register only, R155. -/
theorem State.writeByte_selectBits {x : Word} (h : x ≠ 0xFF00) (v : Byte) :
    (s.writeByte x v).p15 = s.p15 ∧ (s.writeByte x v).p14 = s.p14 := by
  unfold State.writeByte
  cases e : region x
  case joypad => exact absurd (region_joypad_eq e) h
  all_goals exact ⟨rfl, rfl⟩

end

/-! ## Several bus writes -/

/-- The state after bus writes that go through, first write first. -/
def State.writeAll (s : State) : List (Word × Byte) → State
  | [] => s
  | (x, v) :: ws => (s.writeByte x v).writeAll ws

theorem State.readByte_writeAll_ne (s : State) {ws : List (Word × Byte)} {a : Word}
    (h : ∀ x ∈ ws.map Prod.fst, samePlace x a = false) : (s.writeAll ws).readByte a = s.readByte a := by
  induction ws generalizing s with
  | nil => rfl
  | cons w ws ih =>
    obtain ⟨hw, hws⟩ := List.forall_mem_cons.mp h
    exact (ih _ hws).trans (State.readByte_writeByte_ne s hw w.2)

theorem State.writeAll_selectBits (s : State) {ws : List (Word × Byte)} (h : ∀ x ∈ ws.map Prod.fst, x ≠ 0xFF00) :
    (s.writeAll ws).p15 = s.p15 ∧ (s.writeAll ws).p14 = s.p14 := by
  induction ws generalizing s with
  | nil => exact ⟨rfl, rfl⟩
  | cons w ws ih =>
    obtain ⟨hw, hws⟩ := List.forall_mem_cons.mp h
    obtain ⟨h15, h14⟩ := ih (s.writeByte w.1 w.2) hws
    obtain ⟨k15, k14⟩ := State.writeByte_selectBits s hw w.2
    exact ⟨h15.trans k15, h14.trans k14⟩

/-! ## What an instruction stores -/

/-- Two states between which the bus does not distinguish. -/
structure State.SameBus (s t : State) : Prop where
  mem : t.mem = s.mem
  p15 : t.p15 = s.p15
  p14 : t.p14 = s.p14
  joypad : t.joypad = s.joypad
  params : t.params = s.params

theorem State.SameBus.readByte {s t : State} (h : s.SameBus t) (a : Word) : t.readByte a = s.readByte a := by
  unfold State.readByte State.joypRead State.joypColumn
  rw [h.mem, h.p15, h.p14, h.joypad, h.params]

/-- What an instruction makes of the bus: its writes at the addresses it stores to, in its rule's order (R53). -/
theorem State.effect_stores (s : State) (i : Instr) :
    ∃ ws, ws.map Prod.fst = s.storedAt i ∧ (s.writeAll ws).SameBus (s.effect i) := by
  cases i
  case ldAtBcA | ldAtDeA | ldAtHlN8 | ldAtHlR8 | ldhA8A | ldAtCA | ldA16A | ldAtHlIncA | ldAtHlDecA | incAtHl | decAtHl =>
    exact ⟨[(_, _)], rfl, rfl, rfl, rfl, rfl, rfl⟩
  case ldA16Sp | pushRr | callA16 => exact ⟨[(_, _), (_, _)], rfl, rfl, rfl, rfl, rfl, rfl⟩
  case callCcA16 cc _ =>
    simp only [State.storedAt, State.accesses, State.effect]
    split
    · exact ⟨[(_, _), (_, _)], rfl, rfl, rfl, rfl, rfl, rfl⟩
    · exact ⟨[], rfl, rfl, rfl, rfl, rfl, rfl⟩
  case retCc cc =>
    simp only [State.storedAt, State.accesses, State.effect]
    split <;> exact ⟨[], rfl, rfl, rfl, rfl, rfl, rfl⟩
  case ldR8R8 | ldR8AtHl | ldR8N8 | incR8 | decR8 | ldRrN16 | incRr | decRr | popRr =>
    refine ⟨[], rfl, ?_⟩
    constructor <;> simp [State.effect, State.writeAll]
  all_goals exact ⟨[], rfl, rfl, rfl, rfl, rfl, rfl⟩

/-! ## What a step and the host's actions keep of storage -/

/-- What every bus write keeps of storage, a step keeps: it changes storage by bus writes alone. -/
theorem step_mem {P : Memory → Prop} (hw : ∀ (u : State) (x : Word) (v : Byte), P u.mem → P (u.writeByte x v).mem)
    {s t : State} (h : step s = .next t) (hs : P s.mem) : P t.mem := by
  obtain ⟨-, ⟨i, -, he⟩ | ⟨x, -, rfl⟩⟩ := step_next s h
  · obtain hm | ⟨x, v, hm⟩ | ⟨x, y, v, w, hm⟩ := exec_mem he <;> rw [hm]
    · exact hs
    · exact hw _ x v hs
    · exact hw _ y w (hw _ x v hs)
  · exact hs

theorem step_inv {s t : State} (h : step s = .next t) (hs : s.inv) : t.inv :=
  step_mem (P := Memory.wf) (fun u x v hu => State.writeByte_inv u hu x v) h hs

/-- A step leaves every ROM cell as it was, R34. -/
theorem step_rom {s t : State} (h : step s = .next t) {a : Nat} (ha : a < 0x8000) :
    Memory.read t.mem a = Memory.read s.mem a :=
  step_mem (P := fun m => Memory.read m a = Memory.read s.mem a)
    (fun u x v hu => (State.writeByte_rom u x v ha).trans hu) h rfl

/-- A step writes no parameter, and leaves the joypad and the inputs as the host made them before it, R152. -/
theorem step_params_joypad_inputs {s t : State} (h : step s = .next t) :
    t.params = s.params ∧ t.joypad = s.inputs.headD s.joypad ∧ t.inputs = s.inputs.tail := by
  obtain ⟨-, ⟨i, -, he⟩ | ⟨x, -, rfl⟩⟩ := step_next s h
  · obtain ⟨-, -, -, h⟩ := Proofs.statusFrame i s.drawInput t he
    exact h
  · exact ⟨rfl, rfl, rfl⟩

theorem State.perform_inv {s : State} (hs : s.inv) (x : HostAction) : (s.perform x).inv := by
  cases x with
  | load image =>
    simp only [State.perform]
    split
    · next t h =>
      obtain ⟨-, -, rfl⟩ := State.load_ok s h
      exact Params.storage_wf _ _
    · exact hs
  | reset => exact Params.storage_wf _ _
  | step =>
    simp only [State.perform]
    split
    · next t h => exact step_inv h hs
    · exact hs
    · exact hs
  | input j => exact hs

theorem State.performAll_inv {s : State} (hs : s.inv) (acts : List HostAction) : (s.performAll acts).inv := by
  induction acts generalizing s with
  | nil => exact hs
  | cons x xs ih => exact ih (State.perform_inv hs x)

end Sys2Proof.Machine

namespace Sys2Proof.Proofs

open Sys2Proof.Machine

/-! ## The statements -/

/-- Settles O49: the canonical form is kept by every bus write, so by a step, and by each action of the host. -/
theorem canonicalMemoryIsKept : Obligations.CanonicalMemoryIsKept :=
  ⟨fun _ _ hs h => step_inv h hs, fun _ acts hs => State.performAll_inv hs acts⟩

/-- Settles O51: no bus write reaches a ROM cell, and no instruction the parameters or what the host gives. -/
theorem romAndInputsNeverWritten : Obligations.RomAndInputsNeverWritten :=
  fun _ _ h => ⟨fun _ ha => step_rom h ha, step_params_joypad_inputs h⟩

/-- Settles O19, from the rules of a single bus write. -/
theorem busWriteFrame : Obligations.BusWriteFrame := by
  intro s t x v h
  obtain ⟨-, rfl⟩ := State.busWrite_ok s h
  exact ⟨fun _ ha => State.readByte_writeByte_ne s ha v, State.writeByte_frame s x v,
    fun hx => State.writeByte_selectBits s hx v⟩

/-- Settles O55: a denied access writes nothing, and a completed instruction is its bus writes at the stored-to addresses. -/
theorem memoryFrame : Obligations.MemoryFrame := by
  intro i s t h
  obtain ⟨x, -, rfl⟩ | ⟨-, rfl⟩ := exec_next h
  · exact ⟨fun _ _ => rfl, fun _ => ⟨rfl, rfl⟩, fun _ => rfl⟩
  · obtain ⟨ws, hws, hb⟩ := State.effect_stores s i
    rw [← hws]
    refine ⟨fun a ha => (hb.readByte a).trans (State.readByte_writeAll_ne s ha), fun hx => ?_, fun hn => ?_⟩
    · obtain ⟨h15, h14⟩ := State.writeAll_selectBits s hx
      exact ⟨hb.p15.trans h15, hb.p14.trans h14⟩
    · rw [List.map_eq_nil_iff.mp hn] at hb
      exact hb.mem

/-- Settles O16: an address of the four RAM regions reaches its own cell. -/
theorem storageReadsBack : Obligations.StorageReadsBack := by
  intro s a v h
  obtain ⟨hc, hr, hp⟩ : cellOf a = some a.toNat ∧ region a ≠ .rom ∧ (region a).outOfBounds = false := by
    unfold cellOf
    obtain e | e | e | e := region_of_ram h <;> rw [e] <;> exact ⟨rfl, nofun, rfl⟩
  refine ⟨State.permits_inBounds s hp, ?_, State.readByte_of_cell s hc⟩
  rw [State.readByte_of_cell _ hc, State.writeByte_of_cell s hc hr]
  exact Memory.read_write_self s.mem a.toNat v

/-- Settles O17: an echo address and the WRAM address below reach one cell. -/
theorem romAndEchoAccess : Obligations.RomAndEchoAccess := by
  constructor
  · intro s a v h
    have hr : region a = .rom := regionAt_rom (Nat.lt_succ_of_le h)
    have hp : s.permits a = true := State.permits_inBounds s (by rw [hr]; rfl)
    have hc : cellOf a = some a.toNat := by rw [cellOf, hr]
    rw [State.busWrite_of_permits s hp, State.busRead_of_permits s hp, State.writeByte_of_rom s hr,
      State.readByte_of_cell s hc]
    exact ⟨rfl, rfl⟩
  · intro s a v h₁ h₂
    have he : region a = .echo := regionAt_echo h₁ (Nat.lt_succ_of_le h₂)
    have hw : region (a - 0x2000) = .wram := region_sub_of_echo he
    have hpe : s.permits a = true := State.permits_inBounds s (by rw [he]; rfl)
    have hpw : s.permits (a - 0x2000) = true := State.permits_inBounds s (by rw [hw]; rfl)
    have hce : cellOf a = some (a - 0x2000).toNat := by rw [cellOf, he]
    have hcw : cellOf (a - 0x2000) = some (a - 0x2000).toNat := by rw [cellOf, hw]
    constructor
    · rw [State.busRead_of_permits s hpe, State.busRead_of_permits s hpw, State.readByte_of_cell s hce,
        State.readByte_of_cell s hcw]
    · rw [State.busWrite_of_permits s hpe, State.busWrite_of_permits s hpw,
        State.writeByte_of_cell s hce (by rw [he]; nofun), State.writeByte_of_cell s hcw (by rw [hw]; nofun)]

/-- Settles O18: the ranges are the out-of-bounds regions, and the policy alone decides what goes through there. -/
theorem outOfBoundsPolicy : Obligations.OutOfBoundsPolicy := by
  intro s a v h
  have ho := region_outOfBounds h
  constructor
  · intro hs
    have hp := State.permits_sentinel s hs a
    rw [State.busRead_of_permits s hp, State.busWrite_of_permits s hp, State.readByte_of_outOfBounds s ho,
      State.writeByte_of_outOfBounds s ho]
    exact ⟨rfl, rfl⟩
  · intro hf
    have hp := State.not_permits_of_outOfBounds s hf ho
    exact ⟨by rw [State.busRead_eq, if_neg hp], by rw [State.busWrite_eq, if_neg hp]⟩

end Sys2Proof.Proofs
end

section
/-! PROOFS. The statements of spec/30_encoding.md. That an encoding decodes goes through the constructors of `Instr`,
that what decodes is an encoding through the four blocks of R61; which opcodes are refused follows from the two. -/

namespace Sys2Proof

open Sys2Proof.Machine

/-! ## Encodings decode -/

theorem decodeOpcode_unassigned :
    ∀ op ∈ unassignedOpcodes, decodeOpcode op = .f1 (.refusedUnassigned op) := by
  simp only [unassignedOpcodes, List.forall_mem_cons, List.not_mem_nil]
  exact ⟨rfl, rfl, rfl, rfl, rfl, rfl, rfl, rfl, rfl, rfl, rfl, nofun⟩

theorem decode_word {op : Byte} {k : Word → Instr} (h : decodeOpcode op = .f3 k) (v : Word) (rest : List Byte) :
    decode (op :: loByte v :: hiByte v :: rest) = .ok (k v, rest) := by
  rw [decode_f3 h, wordOf_hi_lo]

/-- The opcode byte is a numeral once the register, pair or condition in it is one; the immediates stay free. -/
theorem decode_encode {i : Instr} (h : i.wf = true) (rest : List Byte) : decode (encode i ++ rest) = .ok (i, rest) := by
  cases i
  case refusedUnassigned op =>
    exact decode_f1 (decodeOpcode_unassigned op (List.contains_iff_mem.mp h)) rest
  case ldR8R8 dst src => cases dst <;> cases src <;> exact decode_f1 rfl rest
  case incR8 x | decR8 x | ldR8AtHl x | ldAtHlR8 x | addAR8 x | adcAR8 x | subAR8 x | sbcAR8 x | andAR8 x | xorAR8 x
      | orAR8 x | cpAR8 x | incRr x | decRr x | addHlRr x | pushRr x | popRr x | retCc x =>
    cases x <;> exact decode_f1 rfl rest
  case ldR8N8 x n | jrCcE8 x n => cases x <;> exact decode_f2 rfl n rest
  case ldRrN16 x v | jpCcA16 x v | callCcA16 x v => cases x <;> exact decode_word rfl v rest
  case stop n | jrE8 n | ldAtHlN8 n | addAN8 n | adcAN8 n | subAN8 n | sbcAN8 n | ldhA8A n | andAN8 n | addSpE8 n
      | xorAN8 n | ldhAA8 n | orAN8 n | ldHlSpE8 n | cpAN8 n =>
    exact decode_f2 rfl n rest
  case ldA16Sp v | jpA16 v | callA16 v | ldA16A v | ldAA16 v => exact decode_word rfl v rest
  all_goals exact decode_f1 rfl rest

/-! ## What decodes is an encoding -/

/-- The instruction of a form whose immediate bytes are those of `v`, as many as the form has. -/
@[simp] def OpForm.instr (v : Word) : OpForm → Instr
  | .f1 i => i
  | .f2 k => k (loByte v)
  | .f3 k => k v

/-- The immediate bytes of a form, R60. -/
@[simp] def OpForm.immediates (v : Word) : OpForm → List Byte
  | .f1 _ => []
  | .f2 _ => [loByte v]
  | .f3 _ => [loByte v, hiByte v]

/-- Every instruction of the form is well-formed, and is encoded as the opcode byte and the immediates. -/
def OpForm.EncodedBy (op : Byte) (form : OpForm) : Prop :=
  ∀ v, (form.instr v).wf = true ∧ encode (form.instr v) = op :: form.immediates v

/-- A successful decode read an opcode and the immediates of its form. -/
theorem decode_reads {bytes rest : List Byte} {i : Instr} (h : decode bytes = .ok (i, rest)) :
    ∃ op v, i = (decodeOpcode op).instr v ∧ bytes = op :: (decodeOpcode op).immediates v ++ rest := by
  obtain ⟨op, tl, rfl, ⟨hf, rfl⟩ | ⟨k, n, hf, rfl, rfl⟩ | ⟨k, lo, hi, hf, rfl, rfl⟩⟩ := decode_ok h
  · exact ⟨op, 0, by simp [hf]⟩
  · exact ⟨op, wordOf 0 n, by simp [hf]⟩
  · exact ⟨op, wordOf hi lo, by simp [hf]⟩

theorem code_of_r8OfCode {c : Nat} (hc : c < 8) {r : R8} (h : r8OfCode c = some r) : r.code = c := by
  interval_cases c <;> cases h <;> rfl

theorem eq_six_of_r8OfCode {c : Nat} (h : r8OfCode c = none) : c = 6 := by
  unfold r8OfCode at h
  split at h <;> cases h
  rfl

theorem encodedBy_formR8 {op : Byte} {code : Nat} (hc : code < 8) {reg : R8 → OpForm} {atHl : OpForm}
    (hr : ∀ r : R8, r.code = code → (reg r).EncodedBy op) (hm : code = 6 → atHl.EncodedBy op) :
    (formR8 code reg atHl).EncodedBy op := by
  unfold formR8
  split
  · next r h => exact hr r (code_of_r8OfCode hc h)
  · next h => exact hm (eq_six_of_r8OfCode h)

/-- The opcode byte with the fields `op[7:6]`, `op[5:3]` and `op[2:0]` of R61. -/
def opcodeOf (x y z : Nat) : Byte := BitVec.ofNat 8 (x * 64 + y * 8 + z)

theorem opcodeOf_fields (op : Byte) : opcodeOf (op.toNat / 64) (op.toNat / 8 % 8) (op.toNat % 8) = op := by
  have h : op.toNat / 64 * 64 + op.toNat / 8 % 8 * 8 + op.toNat % 8 = op.toNat := by omega
  rw [opcodeOf, h, BitVec.ofNat_toNat, BitVec.setWidth_eq]

/-- Blocks 0 and 3 are irregular: they are gone through opcode by opcode. -/
theorem encodedBy_decodeBlock0 {y z : Nat} (hy : y < 8) (hz : z < 8) :
    (decodeBlock0 y z).EncodedBy (opcodeOf 0 y z) := by
  interval_cases z <;> interval_cases y <;> exact fun _ => ⟨rfl, rfl⟩

theorem encodedBy_decodeBlock1 {y z : Nat} (hy : y < 8) (hz : z < 8) :
    (decodeBlock1 y z).EncodedBy (opcodeOf 1 y z) := by
  unfold decodeBlock1
  split
  · next dst src hd hs =>
    obtain rfl := code_of_r8OfCode hy hd
    obtain rfl := code_of_r8OfCode hz hs
    exact fun _ => ⟨rfl, by simp [encode, opByte, opcodeOf]⟩
  · next dst hd hs =>
    obtain rfl := code_of_r8OfCode hy hd
    obtain rfl := eq_six_of_r8OfCode hs
    exact fun _ => ⟨rfl, by simp [encode, opByte, opcodeOf, Nat.add_right_comm]⟩
  · next src hd hs =>
    obtain rfl := eq_six_of_r8OfCode hd
    obtain rfl := code_of_r8OfCode hz hs
    exact fun _ => ⟨rfl, by simp [encode, opByte, opcodeOf]⟩
  · next hd hs =>
    obtain rfl := eq_six_of_r8OfCode hd
    obtain rfl := eq_six_of_r8OfCode hs
    exact fun _ => ⟨rfl, rfl⟩

theorem encodedBy_decodeBlock2 {y z : Nat} (hy : y < 8) (hz : z < 8) :
    (decodeBlock2 y z).EncodedBy (opcodeOf 2 y z) := by
  interval_cases y <;> refine encodedBy_formR8 hz (fun r hr _ => ⟨rfl, ?_⟩) (fun h _ => ⟨rfl, ?_⟩) <;> subst z
  all_goals simp [encode, opByte, opcodeOf]

theorem encodedBy_decodeBlock3 {y z : Nat} (hy : y < 8) (hz : z < 8) :
    (decodeBlock3 (opcodeOf 3 y z) y z).EncodedBy (opcodeOf 3 y z) := by
  interval_cases z <;> interval_cases y <;> exact fun _ => ⟨rfl, rfl⟩

theorem encodedBy_decodeOpcode (op : Byte) : (decodeOpcode op).EncodedBy op := by
  have hy : op.toNat / 8 % 8 < 8 := Nat.mod_lt _ (by decide)
  have hz : op.toNat % 8 < 8 := Nat.mod_lt _ (by decide)
  have hx : op.toNat / 64 < 4 := by omega
  have hop := opcodeOf_fields op
  unfold decodeOpcode
  generalize op.toNat / 64 = x at hx hop
  generalize op.toNat / 8 % 8 = y at hy hop
  generalize op.toNat % 8 = z at hz hop
  subst hop
  interval_cases x
  · exact encodedBy_decodeBlock0 hy hz
  · exact encodedBy_decodeBlock1 hy hz
  · exact encodedBy_decodeBlock2 hy hz
  · exact encodedBy_decodeBlock3 hy hz

theorem encode_decode {bytes rest : List Byte} {i : Instr} (h : decode bytes = .ok (i, rest)) :
    i.wf = true ∧ bytes = encode i ++ rest := by
  obtain ⟨op, v, rfl, rfl⟩ := decode_reads h
  obtain ⟨hw, he⟩ := encodedBy_decodeOpcode op v
  exact ⟨hw, by rw [he]⟩

/-! ## The refused opcodes -/

/-- The opcodes of R66. -/
def refusedOpcodes : List Byte :=
  unassignedOpcodes ++ [0xCB, 0xC7, 0xCF, 0xD7, 0xDF, 0xE7, 0xEF, 0xF7, 0xFF, 0xFB, 0xD9]

theorem refusedOp_eq_some {i : Instr} {op : Byte} (hw : i.wf = true) (h : i.refusedOp = some op) :
    encode i = [op] ∧ op ∈ refusedOpcodes := by
  cases i <;> cases h
  case refusedUnassigned => exact ⟨rfl, List.mem_append_left _ (List.contains_iff_mem.mp hw)⟩
  all_goals exact ⟨rfl, by decide⟩

/-- Each opcode of R66 has its refused instruction. -/
theorem exists_refused {op : Byte} (h : op ∈ refusedOpcodes) :
    ∃ i : Instr, i.wf = true ∧ i.refusedOp = some op ∧ encode i = [op] := by
  obtain h | h := List.mem_append.mp h
  · exact ⟨.refusedUnassigned op, List.contains_iff_mem.mpr h, rfl, rfl⟩
  · simp only [List.mem_cons, List.not_mem_nil, or_false] at h
    obtain rfl | rfl | rfl | rfl | rfl | rfl | rfl | rfl | rfl | rfl | rfl := h
    exacts [⟨.refusedCbPrefix, rfl, rfl, rfl⟩, ⟨.refusedRst00H, rfl, rfl, rfl⟩, ⟨.refusedRst08H, rfl, rfl, rfl⟩,
      ⟨.refusedRst10H, rfl, rfl, rfl⟩, ⟨.refusedRst18H, rfl, rfl, rfl⟩, ⟨.refusedRst20H, rfl, rfl, rfl⟩,
      ⟨.refusedRst28H, rfl, rfl, rfl⟩, ⟨.refusedRst30H, rfl, rfl, rfl⟩, ⟨.refusedRst38H, rfl, rfl, rfl⟩,
      ⟨.refusedEi, rfl, rfl, rfl⟩, ⟨.refusedReti, rfl, rfl, rfl⟩]

theorem refusedOp_of_decode {op : Byte} {tl rest : List Byte} {i : Instr} (h : decode (op :: tl) = .ok (i, rest)) :
    i.refusedOp = if op ∈ refusedOpcodes then some op else none := by
  split
  · next hm =>
    obtain ⟨j, hw, hr, he⟩ := exists_refused hm
    have hj : decode (op :: tl) = .ok (j, tl) := by simpa [he] using decode_encode hw tl
    cases hj.symm.trans h
    exact hr
  · next hm =>
    obtain ⟨hw, hb⟩ := encode_decode h
    refine Option.eq_none_iff_forall_ne_some.mpr fun o ho => hm ?_
    obtain ⟨he, hmem⟩ := refusedOp_eq_some hw ho
    rw [he] at hb
    cases hb
    exact hmem

end Sys2Proof

namespace Sys2Proof.Proofs

/-! ## The statements -/

/-- Settles O2, constructor by constructor. -/
theorem decodeOfEncode : Obligations.DecodeOfEncode := fun _ rest h => decode_encode h rest

/-- Settles O3: every form the decoder answers is encoded by its opcode. -/
theorem encodeOfDecode : Obligations.EncodeOfDecode := fun _ _ _ h => encode_decode h

/-- Settles O5, from the two directions of the encoding. -/
theorem refusedOpcodesExactly : Obligations.RefusedOpcodesExactly := fun _ _ _ h => refusedOp_of_decode h

/-- Settles O1: each word is evaluated. -/
theorem encodingWordsDecode : Obligations.EncodingWordsDecode :=
  ⟨rfl, rfl, rfl, rfl, rfl, rfl, rfl, rfl, rfl, rfl, rfl, rfl, rfl, rfl, rfl, rfl, rfl, rfl, rfl, rfl⟩

/-- Settles O4 by going through the 256 opcodes. -/
theorem opcodeDeterminesLength : Obligations.OpcodeDeterminesLength := by
  unfold Obligations.OpcodeDeterminesLength
  decide

end Sys2Proof.Proofs
end

section
/-! PROOFS. The statements of spec/40_inc_dec.md. The four next-state statements are read off `exec_eq`; the loop counts
follow from what INC and DEC have in common: each adds a fixed number mod 256 and sets Z exactly when the result is 0. -/

namespace Sys2Proof

/-- A field code stands above the `shift` bits below it, R61. -/
theorem opByte_eq (base code shift : Nat) : opByte base code shift = BitVec.ofNat 8 (base + 2 ^ shift * code) := by
  rw [opByte, Nat.mul_comm]

namespace Machine

/-! ## The next state of an instruction that is no control transfer -/

section

variable {s : State} {i : Instr}

/-- Where no access is denied: what the instruction writes, and the following address. -/
theorem exec_of_permitted (hd : s.firstDenied i = none) (hc : i.isControl = false) (hr : i.refusedOp = none) :
    exec i s = .next { s.effect i with pc := s.pc + BitVec.ofNat 16 i.length } := by
  rw [exec_eq, State.ending_of_permitted hd, State.completed, State.nextPc_of_not_control s hc hr, State.setPc]

theorem exec_of_denied {x : OobAccess} (hd : s.firstDenied i = some x) :
    exec i s = .next { s with run := .faulted s.pc (.outOfBounds x.addr x.kind) } := by
  rw [exec_eq, State.ending_of_denied hd, State.raise, State.setRun]

/-- INC (HL) and DEC (HL) read and write one address, so it is the read that is denied, R75 and R76. -/
theorem State.firstDenied_of_modifiesAtHl (ha : s.accesses i = [⟨s.hl, .read⟩, ⟨s.hl, .write⟩]) :
    s.firstDenied i = if s.permits s.hl then none else some ⟨s.hl, .read⟩ := by
  rw [State.firstDenied_two ha]
  split <;> rfl

end

/-! ## One more and one less, as natural numbers -/

/-- `increment`, R71, its result written as the statements write it. -/
theorem Alu.increment_eq (v : Byte) (f : Flags) :
    Alu.increment v f =
      { val := BitVec.ofNat 8 ((v.toNat + 1) % 256),
        flags := { z := decide ((v.toNat + 1) % 256 = 0), n := false, h := decide (v.toNat % 16 = 15), c := f.c } } := rfl

/-- `decrement`, R71, without its negative intermediate result. -/
theorem Alu.decrement_eq (v : Byte) (f : Flags) :
    Alu.decrement v f =
      { val := BitVec.ofNat 8 ((v.toNat + 255) % 256),
        flags := { z := decide ((v.toNat + 255) % 256 = 0), n := true, h := decide (v.toNat % 16 = 0), c := f.c } } := by
  have hr : ((v.toNat : Int) - 1) % 256 = ((v.toNat + 255) % 256 : Nat) := by omega
  simp only [Alu.decrement, hr, BitVec.ofInt_natCast, Int.natCast_eq_zero]

theorem ofNat_toNat_add_one (v : Word) : BitVec.ofNat 16 (v.toNat + 1) = v + 1 := by
  rw [BitVec.ofNat_add, BitVec.ofNat_toNat, BitVec.setWidth_eq]
  rfl

theorem ofInt_toNat_sub_one (v : Word) : BitVec.ofInt 16 (v.toNat - 1) = v - 1 := by
  rw [Int.sub_eq_add_neg, BitVec.ofInt_add, BitVec.ofInt_natCast, BitVec.ofNat_toNat, BitVec.setWidth_eq,
    BitVec.sub_eq_add_neg]
  rfl

/-! ## Counting until Z is set -/

/-- An operation applied to the byte and the flags of the result before. -/
def Alu.again (op : Byte → Flags → AluResult) (x : AluResult) : AluResult := op x.val x.flags

/-- The operation adds `d` mod 256 and sets Z exactly when the result is 0. -/
structure Alu.Counts (op : Byte → Flags → AluResult) (d : Nat) : Prop where
  val : ∀ v f, (op v f).val.toNat = (v.toNat + d) % 256
  z : ∀ v f, (op v f).flags.z = decide ((v.toNat + d) % 256 = 0)

theorem Alu.increment_counts : Alu.Counts Alu.increment 1 where
  val v f := by simp [Alu.increment_eq]
  z v f := by rw [Alu.increment_eq]

theorem Alu.decrement_counts : Alu.Counts Alu.decrement 255 where
  val v f := by simp [Alu.decrement_eq]
  z v f := by rw [Alu.decrement_eq]

section

variable {op : Byte → Flags → AluResult} {d : Nat}

theorem Alu.Counts.iterate_val (h : Alu.Counts op d) (x : AluResult) (k : Nat) :
    ((Alu.again op)^[k] x).val.toNat = (x.val.toNat + k * d) % 256 := by
  induction k with
  | zero =>
    have := x.val.isLt
    simp only [Function.iterate_zero_apply]
    omega
  | succ k ih =>
    rw [Function.iterate_succ_apply', Alu.again, h.val, ih, Nat.succ_mul]
    omega

theorem Alu.Counts.iterate_z (h : Alu.Counts op d) (x : AluResult) {k : Nat} (hk : 0 < k) :
    ((Alu.again op)^[k] x).flags.z = decide ((x.val.toNat + k * d) % 256 = 0) := by
  obtain ⟨k, rfl⟩ := Nat.exists_eq_add_one_of_ne_zero hk.ne'
  rw [← h.iterate_val, Function.iterate_succ_apply', Alu.again, h.z, h.val]

/-- Where `n` is the first number of `d`s that brings `v` to 0 mod 256, application `n` is the first to set Z. -/
theorem Alu.Counts.first_z (h : Alu.Counts op d) (v : Byte) (f : Flags) {n : Nat} (hn : 0 < n)
    (h0 : (v.toNat + n * d) % 256 = 0) (hlt : ∀ k, 0 < k → k < n → (v.toNat + k * d) % 256 ≠ 0) :
    ((Alu.again op)^[n] ⟨v, f⟩).flags.z = true ∧ ((Alu.again op)^[n] ⟨v, f⟩).val = 0 ∧
      ∀ k, 0 < k → k < n → ((Alu.again op)^[k] ⟨v, f⟩).flags.z = false := by
  refine ⟨?_, ?_, fun k hk hkn => ?_⟩
  · rw [h.iterate_z _ hn, decide_eq_true h0]
  · exact BitVec.eq_of_toNat_eq ((h.iterate_val _ n).trans h0)
  · rw [h.iterate_z _ hk, decide_eq_false (hlt k hk hkn)]

end

end Machine

end Sys2Proof

namespace Sys2Proof.Proofs

open Sys2Proof.Machine

/-! ## The statements -/

/-- Settles O25: adding 255 first gives 0 mod 256 after `v` times (256 for 0), adding 1 after `256 - v` times. -/
theorem loopCounts : Obligations.LoopCounts := by
  intro v f dec inc nd ni
  have hv : v.toNat < 256 := v.isLt
  have hnd : v.toNat = 0 ∧ nd = 256 ∨ 0 < v.toNat ∧ nd = v.toNat := by
    by_cases h0 : v = 0
    · exact .inl ⟨congrArg BitVec.toNat h0, if_pos h0⟩
    · exact .inr ⟨Nat.pos_of_ne_zero fun e => h0 (BitVec.eq_of_toNat_eq e), if_neg h0⟩
  have hni : ni = 256 - v.toNat := rfl
  exact ⟨Alu.decrement_counts.first_z v f (by omega) (by omega) (by omega),
    Alu.increment_counts.first_z v f (by omega) (by omega) (by omega)⟩

/-- Settles O22: no data access, and the results of `Alu.increment` and `Alu.decrement` as numbers. -/
theorem incDecR8Result : Obligations.IncDecR8Result := by
  refine ⟨fun r => ⟨congrArg ([·]) (opByte_eq _ _ _), congrArg ([·]) (opByte_eq _ _ _)⟩, fun s r => ⟨?_, ?_⟩⟩
  · rw [exec_of_permitted (State.firstDenied_none rfl) rfl rfl, State.effect, Alu.increment_eq]
    rfl
  · rw [exec_of_permitted (State.firstDenied_none rfl) rfl rfl, State.effect, Alu.decrement_eq]
    rfl

/-- Settles O23: both accesses are at HL, so both go through, or the read is the first that does not. -/
theorem incDecAtHlResult : Obligations.IncDecAtHlResult := by
  refine ⟨rfl, rfl, fun s hp => ⟨?_, ?_⟩, fun s hp => ?_⟩
  · rw [exec_of_permitted ((State.firstDenied_of_modifiesAtHl rfl).trans (if_pos hp)) rfl rfl, State.effect,
      State.modifiedAtHl, Alu.increment_eq]
    rfl
  · rw [exec_of_permitted ((State.firstDenied_of_modifiesAtHl rfl).trans (if_pos hp)) rfl rfl, State.effect,
      State.modifiedAtHl, Alu.decrement_eq]
    rfl
  · have hn : ¬s.permits s.hl = true := Bool.eq_false_iff.mp hp
    exact ⟨exec_of_denied ((State.firstDenied_of_modifiesAtHl rfl).trans (if_neg hn)),
      exec_of_denied ((State.firstDenied_of_modifiesAtHl rfl).trans (if_neg hn))⟩

/-- Settles O24: no data access, and the word one more or one less is a number mod 65536. -/
theorem incDecPairResult : Obligations.IncDecPairResult := by
  refine ⟨fun rr => ⟨congrArg ([·]) (opByte_eq _ _ _), congrArg ([·]) (opByte_eq _ _ _)⟩, fun s rr => ⟨?_, ?_⟩⟩
  · rw [ofNat_toNat_add_one]
    exact exec_of_permitted (State.firstDenied_none rfl) rfl rfl
  · rw [ofInt_toNat_sub_one]
    exact exec_of_permitted (State.firstDenied_none rfl) rfl rfl

end Sys2Proof.Proofs
end

section
/-! PROOFS. The statements of spec/41_alu.md. The next states are read off `exec_eq` by the data access an
instruction makes; the rest is arithmetic of the results of `Alu`, each said once as the statements write it. -/

namespace Sys2Proof

/-- The encoding by an opcode whose field code is in the lowest bits, R61. -/
theorem singleton_opByte_zero (base code : Nat) : [opByte base code 0] = [BitVec.ofNat 8 (base + code)] := by
  rw [opByte, pow_zero, mul_one]

namespace Machine

/-! ## The next state by the data access -/

section

variable {s : State} {i : Instr}

theorem exec_of_no_access (ha : s.accesses i = []) (hc : i.isControl = false) (hr : i.refusedOp = none) :
    exec i s = .next { s.effect i with pc := s.pc + BitVec.ofNat 16 i.length } :=
  exec_of_permitted (State.firstDenied_none ha) hc hr

theorem exec_of_access_permitted {a : Word} {k : Access} (ha : s.accesses i = [⟨a, k⟩]) (hp : s.permits a = true)
    (hc : i.isControl = false) (hr : i.refusedOp = none) :
    exec i s = .next { s.effect i with pc := s.pc + BitVec.ofNat 16 i.length } :=
  exec_of_permitted ((State.firstDenied_one ha).trans (if_pos hp)) hc hr

theorem exec_of_access_denied {a : Word} {k : Access} (ha : s.accesses i = [⟨a, k⟩]) (hp : s.permits a = false) :
    exec i s = .next { s with run := .faulted s.pc (.outOfBounds a k) } :=
  exec_of_denied ((State.firstDenied_one ha).trans (if_neg (Bool.eq_false_iff.mp hp)))

end

namespace Alu

/-! ## Subtraction and decimal adjustment -/

/-- SUB is SBC without a borrow-in, R83 and R84. -/
theorem sub_eq_sbc (a v : Byte) : sub a v = sbc a v false := by
  simp [sub, sbc]

theorem ite_add_eq_add_mul_toNat (b : Bool) (x k : Int) : (if b then x + k else x) = x + k * b.toNat := by
  cases b <;> simp

theorem ite_sub_eq_sub_mul_toNat (b : Bool) (x k : Int) : (if b then x - k else x) = x - k * b.toNat := by
  cases b <;> simp

/-- DAA after a subtraction as one adjustment, R89. -/
theorem daaSub_eq (a : Byte) (f : Flags) :
    daaSub a f = ((a.toNat : Int) - (0x60 * f.c.toNat + 0x06 * f.h.toNat), f.c) := by
  simp only [daaSub, ite_sub_eq_sub_mul_toNat]
  rw [sub_sub]

/-- Adding 0x60 leaves the low digit, so both adjustments after an addition are decided on the old value, R89. -/
theorem daaAdd_eq (a : Byte) (f : Flags) :
    daaAdd a f =
      ((a.toNat : Int) +
          (0x60 * (f.c || decide (a.toNat > 0x99)).toNat + 0x06 * (f.h || decide (a.toNat % 16 > 9)).toNat),
        f.c || decide (a.toNat > 0x99)) := by
  have hlow (b : Bool) : decide (((a.toNat : Int) + 0x60 * b.toNat) % 16 > 0x09) = decide (a.toNat % 16 > 9) :=
    decide_eq_decide.mpr (by omega)
  simp only [daaAdd, ite_add_eq_add_mul_toNat, hlow]
  rw [add_assoc]

/-! ## Complement and rotates -/

theorem not_eq_ofNat (a : Byte) : ~~~a = BitVec.ofNat 8 (255 - a.toNat) := by
  apply BitVec.eq_of_toNat_eq
  rw [BitVec.toNat_not, BitVec.toNat_ofNat]
  omega

theorem toNat_setWidth_ofBool (b : Bool) : ((BitVec.ofBool b).setWidth 8).toNat = b.toNat := by
  cases b <;> rfl

/-- A shift left by one, with a bit put in below. -/
theorem shiftLeft_or_bit (a : Byte) (b : Bool) :
    a <<< 1 ||| (BitVec.ofBool b).setWidth 8 = BitVec.ofNat 8 (a.toNat * 2 % 256 + b.toNat) := by
  have hb := b.toNat_lt
  have hshift : (a <<< 1).toNat = 2 ^ 1 * (a.toNat % 128) := by
    rw [BitVec.toNat_shiftLeft, Nat.shiftLeft_eq]
    omega
  apply BitVec.eq_of_toNat_eq
  rw [BitVec.toNat_or, hshift, toNat_setWidth_ofBool, ← Nat.two_pow_add_eq_or_of_lt hb, BitVec.toNat_ofNat]
  omega

/-- A shift right by one, with a bit put in above. -/
theorem shiftRight_or_bit (a : Byte) (b : Bool) :
    a >>> 1 ||| (BitVec.ofBool b).setWidth 8 <<< 7 = BitVec.ofNat 8 (a.toNat / 2 + b.toNat * 128) := by
  have hb := b.toNat_lt
  have hshift : ((BitVec.ofBool b).setWidth 8 <<< 7).toNat = 2 ^ 7 * b.toNat := by
    rw [BitVec.toNat_shiftLeft, Nat.shiftLeft_eq, toNat_setWidth_ofBool]
    omega
  have ha : a.toNat >>> 1 < 2 ^ 7 := by
    rw [Nat.shiftRight_eq_div_pow]
    omega
  apply BitVec.eq_of_toNat_eq
  rw [BitVec.toNat_or, hshift, BitVec.toNat_ushiftRight, Nat.or_comm, ← Nat.two_pow_add_eq_or_of_lt ha,
    Nat.shiftRight_eq_div_pow, BitVec.toNat_ofNat]
  omega

theorem getLsbD_seven (a : Byte) : a.getLsbD 7 = decide (a.toNat / 128 = 1) := by
  rw [BitVec.getLsbD, Nat.testBit_eq_decide_div_mod_eq]
  exact decide_eq_decide.mpr (by omega)

theorem getLsbD_zero (a : Byte) : a.getLsbD 0 = decide (a.toNat % 2 = 1) := by
  rw [BitVec.getLsbD, Nat.testBit_zero]

theorem toNat_decide_eq_one {n : Nat} (h : n < 2) : (decide (n = 1)).toNat = n := by
  interval_cases n <;> rfl

theorem rla_eq (a : Byte) (c : Bool) :
    rla a c = { val := BitVec.ofNat 8 (a.toNat * 2 % 256 + c.toNat),
                flags := rotateFlags (decide (a.toNat / 128 = 1)) } := by
  rw [rla, shiftLeft_or_bit, getLsbD_seven]

theorem rra_eq (a : Byte) (c : Bool) :
    rra a c = { val := BitVec.ofNat 8 (a.toNat / 2 + c.toNat * 128),
                flags := rotateFlags (decide (a.toNat % 2 = 1)) } := by
  rw [rra, shiftRight_or_bit, getLsbD_zero]

/-- RLCA puts in the bit it rotates out, R93. -/
theorem rlca_eq (a : Byte) :
    rlca a = { val := BitVec.ofNat 8 (a.toNat * 2 % 256 + a.toNat / 128),
               flags := rotateFlags (decide (a.toNat / 128 = 1)) } := by
  refine (rla_eq a (a.getLsbD 7)).trans ?_
  rw [getLsbD_seven, toNat_decide_eq_one (by omega)]

/-- RRCA puts in the bit it rotates out, R94. -/
theorem rrca_eq (a : Byte) :
    rrca a = { val := BitVec.ofNat 8 (a.toNat / 2 + a.toNat % 2 * 128),
               flags := rotateFlags (decide (a.toNat % 2 = 1)) } := by
  refine (rra_eq a (a.getLsbD 0)).trans ?_
  rw [getLsbD_zero, toNat_decide_eq_one (by omega)]

/-! ## Sums of words -/

/-- The displaced stack pointer as an exact sum, R98. -/
theorem addSp_eq_ofInt (v : Word) (e : Byte) : addSp v e = BitVec.ofInt 16 (v.toNat + e.toInt) := by
  rw [BitVec.ofInt_add, BitVec.ofInt_natCast, BitVec.ofNat_toNat, BitVec.setWidth_eq]
  rfl

theorem hiByte_addHl (x y : Word) : hiByte (addHl x y) = BitVec.ofNat 8 ((x.toNat + y.toNat) % 65536 / 256) := by
  rw [hiByte_eq_ofNat, addHl, BitVec.toNat_ofNat]

theorem loByte_addHl (x y : Word) : loByte (addHl x y) = BitVec.ofNat 8 ((x.toNat + y.toNat) % 256) := by
  rw [loByte_eq_ofNat, addHl, BitVec.toNat_ofNat, Nat.mod_mod_of_dvd _ (by decide)]

end Alu

end Machine

end Sys2Proof

namespace Sys2Proof.Proofs

open Sys2Proof.Machine

/-! ## The statements -/

/-- Settles O26: the sums of `Alu.add` and `Alu.adc` are the statement's; only the (HL) forms access data. -/
theorem addAdcResult : Obligations.AddAdcResult := by
  refine ⟨fun r => ⟨singleton_opByte_zero _ _, singleton_opByte_zero _ _⟩, rfl, rfl,
    fun n => ⟨rfl, rfl⟩, fun s v => ⟨?_, ?_, ?_⟩, fun s hp => ?_⟩
  · rintro r rfl
    exact ⟨exec_of_no_access rfl rfl rfl, exec_of_no_access rfl rfl rfl⟩
  · rintro hp rfl
    exact ⟨exec_of_access_permitted rfl hp rfl rfl, exec_of_access_permitted rfl hp rfl rfl⟩
  · exact ⟨exec_of_no_access rfl rfl rfl, exec_of_no_access rfl rfl rfl⟩
  · exact ⟨exec_of_access_denied rfl hp, exec_of_access_denied rfl hp⟩

/-- Settles O27: SUB and CP are the subtraction of SBC without a borrow-in. -/
theorem subSbcCpResult : Obligations.SubSbcCpResult := by
  refine ⟨fun r => ⟨singleton_opByte_zero _ _, singleton_opByte_zero _ _, singleton_opByte_zero _ _⟩,
    rfl, rfl, rfl, fun n => ⟨rfl, rfl, rfl⟩, fun s v => ?_, fun s hp => ?_⟩
  · intro flags diff cmp
    have hdiff (len : Word) : diff 0 len = { s.putA (Alu.sub s.a v) with pc := s.pc + len } := by
      rw [Alu.sub_eq_sbc]
      rfl
    have hcmp (len : Word) : cmp len = { s.setF (Alu.cp s.a v) with pc := s.pc + len } := by
      rw [Alu.cp, Alu.sub_eq_sbc]
      rfl
    rw [hdiff, hdiff, hcmp, hcmp]
    refine ⟨?_, ?_, ?_⟩
    · rintro r rfl
      exact ⟨exec_of_no_access rfl rfl rfl, exec_of_no_access rfl rfl rfl, exec_of_no_access rfl rfl rfl⟩
    · rintro hp rfl
      exact ⟨exec_of_access_permitted rfl hp rfl rfl, exec_of_access_permitted rfl hp rfl rfl,
        exec_of_access_permitted rfl hp rfl rfl⟩
    · exact ⟨exec_of_no_access rfl rfl rfl, exec_of_no_access rfl rfl rfl, exec_of_no_access rfl rfl rfl⟩
  · exact ⟨exec_of_access_denied rfl hp, exec_of_access_denied rfl hp, exec_of_access_denied rfl hp⟩

/-- Settles O28: the results of `Alu.and`, `Alu.xor` and `Alu.or` are the statement's; only the (HL) forms access data. -/
theorem andXorOrResult : Obligations.AndXorOrResult := by
  refine ⟨fun r => ⟨singleton_opByte_zero _ _, singleton_opByte_zero _ _, singleton_opByte_zero _ _⟩,
    rfl, rfl, rfl, fun n => ⟨rfl, rfl, rfl⟩, fun s v => ⟨?_, ?_, ?_⟩, fun s hp => ?_⟩
  · rintro r rfl
    exact ⟨exec_of_no_access rfl rfl rfl, exec_of_no_access rfl rfl rfl, exec_of_no_access rfl rfl rfl⟩
  · rintro hp rfl
    exact ⟨exec_of_access_permitted rfl hp rfl rfl, exec_of_access_permitted rfl hp rfl rfl,
      exec_of_access_permitted rfl hp rfl rfl⟩
  · exact ⟨exec_of_no_access rfl rfl rfl, exec_of_no_access rfl rfl rfl, exec_of_no_access rfl rfl rfl⟩
  · exact ⟨exec_of_access_denied rfl hp, exec_of_access_denied rfl hp, exec_of_access_denied rfl hp⟩

/-- Settles O29, after an addition and after a subtraction. -/
theorem daaResult : Obligations.DaaResult := by
  refine ⟨rfl, fun s => ?_⟩
  rw [exec_of_no_access rfl rfl rfl, State.effect, Alu.daa, Alu.daaSub_eq, Alu.daaAdd_eq]
  cases hn : s.f.n <;> rfl

/-- Settles O30: the complement is a number, the flags are those of `Alu`. -/
theorem cplScfCcfResult : Obligations.CplScfCcfResult := by
  refine ⟨rfl, rfl, rfl, fun s => ⟨?_, exec_of_no_access rfl rfl rfl, exec_of_no_access rfl rfl rfl⟩⟩
  rw [← Alu.not_eq_ofNat]
  exact exec_of_no_access rfl rfl rfl

/-- Settles O31: a rotate is a shift by one, as a number, beside the bit put in. -/
theorem rotateResult : Obligations.RotateResult := by
  refine ⟨rfl, rfl, rfl, rfl, fun s => ?_⟩
  intro a res
  have hres (x : Nat) (c : Bool) :
      res x c = { s.putA ⟨BitVec.ofNat 8 x, Alu.rotateFlags c⟩ with pc := s.pc + 1 } := rfl
  rw [hres, hres, hres, hres, ← Alu.rlca_eq, ← Alu.rrca_eq, ← Alu.rla_eq, ← Alu.rra_eq]
  exact ⟨exec_of_no_access rfl rfl rfl, exec_of_no_access rfl rfl rfl, exec_of_no_access rfl rfl rfl,
    exec_of_no_access rfl rfl rfl⟩

/-- Settles O32: no data access, and HL's halves are those of the sum mod 65536. -/
theorem addHlResult : Obligations.AddHlResult := by
  refine ⟨fun rr => congrArg ([·]) (opByte_eq _ _ _), fun s rr => ?_⟩
  intro x y
  rw [← Alu.hiByte_addHl, ← Alu.loByte_addHl]
  exact exec_of_no_access rfl rfl rfl

/-- Settles O33: the displaced stack pointer is an exact sum, and HL's halves are numbers. -/
theorem spDisplacementResult : Obligations.SpDisplacementResult := by
  refine ⟨fun e => ⟨rfl, rfl⟩, fun s e => ?_⟩
  intro sum flags
  have hsum : sum = Alu.addSp s.sp e := (Alu.addSp_eq_ofInt _ _).symm
  rw [hsum, ← hiByte_eq_ofNat, ← loByte_eq_ofNat]
  exact ⟨exec_of_no_access rfl rfl rfl, exec_of_no_access rfl rfl rfl⟩

end Sys2Proof.Proofs
end

section
/-! PROOFS. The statements of spec/42_loads.md. The next states are read off `exec_eq` by the data accesses an instruction
makes, one or two; a chain of LD A,(HL+) goes by the bus, which each of them leaves as it was. -/

namespace Sys2Proof.Machine

/-! ## Immediates and addresses as numbers -/

/-- The immediate bytes of a 16-bit operand as numbers, the low byte first, R60. -/
theorem immediates_eq_ofNat (v : Word) :
    [loByte v, hiByte v] = [BitVec.ofNat 8 (v.toNat % 256), BitVec.ofNat 8 (v.toNat / 256)] := by
  rw [loByte_eq_ofNat, hiByte_eq_ofNat]

/-- The high-page address as a number, R62. -/
theorem highPage_eq_ofNat (n : Byte) : highPage n = BitVec.ofNat 16 (0xFF00 + n.toNat) := by
  rw [highPage, BitVec.ofNat_add, BitVec.ofNat_toNat]
  rfl

theorem ofNat_toNat_add (v : Word) (n : Nat) : BitVec.ofNat 16 (v.toNat + n) = v + BitVec.ofNat 16 n := by
  rw [BitVec.ofNat_add, BitVec.ofNat_toNat, BitVec.setWidth_eq]

/-! ## The next state of an instruction with two data accesses -/

section

variable {s : State} {i : Instr} {a b : Word} {k l : Access}

theorem exec_of_two_accesses_permitted (ha : s.accesses i = [⟨a, k⟩, ⟨b, l⟩]) (hp : s.permits a = true)
    (hq : s.permits b = true) (hc : i.isControl = false) (hr : i.refusedOp = none) :
    exec i s = .next { s.effect i with pc := s.pc + BitVec.ofNat 16 i.length } :=
  exec_of_permitted (by rw [State.firstDenied_two ha, if_pos hp, if_pos hq]) hc hr

theorem exec_of_first_access_denied (ha : s.accesses i = [⟨a, k⟩, ⟨b, l⟩]) (hp : s.permits a = false) :
    exec i s = .next { s with run := .faulted s.pc (.outOfBounds a k) } :=
  exec_of_denied ((State.firstDenied_two ha).trans (if_neg (Bool.eq_false_iff.mp hp)))

theorem exec_of_second_access_denied (ha : s.accesses i = [⟨a, k⟩, ⟨b, l⟩]) (hp : s.permits a = true)
    (hq : s.permits b = false) :
    exec i s = .next { s with run := .faulted s.pc (.outOfBounds b l) } :=
  exec_of_denied (by rw [State.firstDenied_two ha, if_pos hp, if_neg (Bool.eq_false_iff.mp hq)])

end

/-! ## The stack, by the halves of a pair -/

section

variable (s : State) (hi lo : Byte)

theorem State.setBc_wordOf : s.setBc (wordOf hi lo) = { s with b := hi, c := lo } := by
  rw [State.setBc, hiByte_wordOf, loByte_wordOf]

theorem State.setDe_wordOf : s.setDe (wordOf hi lo) = { s with d := hi, e := lo } := by
  rw [State.setDe, hiByte_wordOf, loByte_wordOf]

theorem State.setHl_wordOf : s.setHl (wordOf hi lo) = { s with h := hi, l := lo } := by
  rw [State.setHl, hiByte_wordOf, loByte_wordOf]

theorem State.setAf_wordOf : s.setAf (wordOf hi lo) = { s with a := hi, f := flagsOfByte lo } := by
  rw [State.setAf, hiByte_wordOf, loByte_wordOf]
  rfl

theorem State.pushed_wordOf :
    s.pushed (wordOf hi lo) = { (s.writeByte (s.sp - 1) hi).writeByte (s.sp - 2) lo with sp := s.sp - 2 } := by
  rw [State.pushed, hiByte_wordOf, loByte_wordOf, State.setSp]

variable {s hi lo}

/-- PUSH of a pair whose halves are `hi` and `lo`, where both writes go through, R121. -/
theorem exec_pushRr_of_halves {rr : StackPair} (hv : s.getStackPair rr = wordOf hi lo)
    (h₁ : s.permits (s.sp - 1) = true) (h₂ : s.permits (s.sp - 2) = true) :
    exec (.pushRr rr) s = .next
      { (s.writeByte (s.sp - 1) hi).writeByte (s.sp - 2) lo with sp := s.sp - 2, pc := s.pc + 1 } := by
  rw [exec_of_two_accesses_permitted rfl h₁ h₂ rfl rfl, State.effect, hv, State.pushed_wordOf]
  rfl

/-- POP where both reads go through, R122. -/
theorem exec_popRr_of_permitted (rr : StackPair) (h₁ : s.permits s.sp = true) (h₂ : s.permits (s.sp + 1) = true) :
    exec (.popRr rr) s = .next
      { (s.setSp (s.sp + 2)).setStackPair rr (wordOf (s.readByte (s.sp + 1)) (s.readByte s.sp)) with pc := s.pc + 1 } :=
  exec_of_two_accesses_permitted rfl h₁ h₂ rfl rfl

end

/-! ## A chain of indexed loads -/

theorem State.SameBus.refl (s : State) : s.SameBus s := ⟨rfl, rfl, rfl, rfl, rfl⟩

theorem State.SameBus.trans {s t u : State} (h : s.SameBus t) (k : t.SameBus u) : s.SameBus u :=
  ⟨k.mem.trans h.mem, k.p15.trans h.p15, k.p14.trans h.p14, k.joypad.trans h.joypad, k.params.trans h.params⟩

/-- LD A,(HL+) under `Sentinel`: it reads at HL, steps HL on, and keeps F and the bus, R108. -/
theorem exec_ldAAtHlInc_next {s t : State} (hs : s.params.oobPolicy = .sentinel) (h : exec .ldAAtHlInc s = .next t) :
    t.a = s.readByte s.hl ∧ t.hl = s.hl + 1 ∧ t.f = s.f ∧ s.SameBus t := by
  rw [exec_of_access_permitted rfl (State.permits_sentinel s hs _) rfl rfl] at h
  injection h with h
  subst h
  exact ⟨rfl, State.hl_setHl s _, rfl, rfl, rfl, rfl, rfl, rfl⟩

/-- What a chain of LD A,(HL+) under `Sentinel` has made of its first state after `n` of them. -/
theorem ldAAtHlInc_chain {trace : Nat → State} (hs : (trace 0).params.oobPolicy = .sentinel)
    (h : ∀ k, exec .ldAAtHlInc (trace k) = .next (trace (k + 1))) (n : Nat) :
    (trace n).hl = (trace 0).hl + BitVec.ofNat 16 n ∧ (trace n).f = (trace 0).f ∧ (trace 0).SameBus (trace n) := by
  induction n with
  | zero => exact ⟨(BitVec.add_zero _).symm, rfl, State.SameBus.refl _⟩
  | succ n ih =>
    obtain ⟨hhl, hf, hbus⟩ := ih
    have hsn : (trace n).params.oobPolicy = .sentinel := by rw [hbus.params, hs]
    obtain ⟨-, hhl', hf', hbus'⟩ := exec_ldAAtHlInc_next hsn (h n)
    refine ⟨?_, hf'.trans hf, hbus.trans hbus'⟩
    rw [hhl', hhl, BitVec.ofNat_add, BitVec.add_assoc]
    rfl

end Sys2Proof.Machine

namespace Sys2Proof.Proofs

open Sys2Proof.Machine

/-! ## The statements -/

/-- Settles O42: along the chain HL counts up and the bus stays that of the first state. -/
theorem indexedLoadsAreConsecutive : Obligations.IndexedLoadsAreConsecutive := by
  constructor
  · rintro s trace hs rfl h n
    obtain ⟨hhl, hf, hbus⟩ := ldAAtHlInc_chain hs h n
    have hsn : (trace n).params.oobPolicy = .sentinel := by rw [hbus.params, hs]
    obtain ⟨ha, -⟩ := exec_ldAAtHlInc_next hsn (h n)
    rw [ofNat_toNat_add, ← hhl]
    exact ⟨rfl, ha.trans (hbus.readByte _), hf⟩
  · intro x j k hjk hk he
    have hn : (x.toNat + j) % 65536 = (x.toNat + k) % 65536 := by
      simpa only [BitVec.toNat_ofNat] using congrArg BitVec.toNat he
    omega

/-- Settles O34: none of the four accesses data. -/
theorem registerLoadResult : Obligations.RegisterLoadResult := by
  refine ⟨fun dst src => ?_, fun r n => congrArg (· :: [n]) (opByte_eq _ _ _), fun rr n => ?_, rfl, fun s => ?_⟩
  · rw [Nat.mul_comm]
    exact singleton_opByte_zero _ _
  · rw [← immediates_eq_ofNat]
    exact congrArg (· :: [loByte n, hiByte n]) (opByte_eq _ _ _)
  · exact ⟨fun _ _ => exec_of_no_access rfl rfl rfl, fun _ _ => exec_of_no_access rfl rfl rfl,
      fun _ _ => exec_of_no_access rfl rfl rfl, exec_of_no_access rfl rfl rfl⟩

/-- Settles O35: one access, at HL. -/
theorem loadStoreAtHlResult : Obligations.LoadStoreAtHlResult := by
  refine ⟨fun r => ⟨congrArg ([·]) (opByte_eq _ _ _), singleton_opByte_zero _ _⟩, fun _ => rfl,
    fun s hp => ?_, fun s hp => ?_⟩
  · exact ⟨fun _ => exec_of_access_permitted rfl hp rfl rfl, fun _ => exec_of_access_permitted rfl hp rfl rfl,
      fun _ => exec_of_access_permitted rfl hp rfl rfl⟩
  · exact ⟨fun _ => exec_of_access_denied rfl hp, fun _ => exec_of_access_denied rfl hp,
      fun _ => exec_of_access_denied rfl hp⟩

/-- Settles O36: one access, at the address in the pair. -/
theorem loadStoreThroughPairResult : Obligations.LoadStoreThroughPairResult := by
  refine ⟨rfl, rfl, rfl, rfl, fun s hp => ?_, fun s hp => ?_, fun s hp => ?_, fun s hp => ?_⟩
  · exact ⟨exec_of_access_permitted rfl hp rfl rfl, exec_of_access_permitted rfl hp rfl rfl⟩
  · exact ⟨exec_of_access_permitted rfl hp rfl rfl, exec_of_access_permitted rfl hp rfl rfl⟩
  · exact ⟨exec_of_access_denied rfl hp, exec_of_access_denied rfl hp⟩
  · exact ⟨exec_of_access_denied rfl hp, exec_of_access_denied rfl hp⟩

/-- Settles O37: one access, at the old HL; the word one more or one less is a number mod 65536. -/
theorem indexedLoadStoreResult : Obligations.IndexedLoadStoreResult := by
  refine ⟨rfl, rfl, rfl, rfl, fun s hp => ?_, fun s hp => ?_⟩
  · intro up down
    have hup : up = s.hl + 1 := ofNat_toNat_add_one s.hl
    have hdown : down = s.hl - 1 := ofInt_toNat_sub_one s.hl
    rw [hup, hdown]
    exact ⟨exec_of_access_permitted rfl hp rfl rfl, exec_of_access_permitted rfl hp rfl rfl,
      exec_of_access_permitted rfl hp rfl rfl, exec_of_access_permitted rfl hp rfl rfl⟩
  · exact ⟨exec_of_access_denied rfl hp, exec_of_access_denied rfl hp, exec_of_access_denied rfl hp,
      exec_of_access_denied rfl hp⟩

/-- Settles O38: one access, at the high-page address as a number. -/
theorem highPageResult : Obligations.HighPageResult := by
  refine ⟨fun _ => ⟨rfl, rfl⟩, rfl, rfl, fun s n => ?_, fun s => ?_⟩
  · intro x
    have hx : x = highPage n := (highPage_eq_ofNat n).symm
    rw [hx]
    exact ⟨fun hp => ⟨exec_of_access_permitted rfl hp rfl rfl, exec_of_access_permitted rfl hp rfl rfl⟩,
      fun hp => ⟨exec_of_access_denied rfl hp, exec_of_access_denied rfl hp⟩⟩
  · intro x
    have hx : x = highPage s.c := (highPage_eq_ofNat s.c).symm
    rw [hx]
    exact ⟨fun hp => ⟨exec_of_access_permitted rfl hp rfl rfl, exec_of_access_permitted rfl hp rfl rfl⟩,
      fun hp => ⟨exec_of_access_denied rfl hp, exec_of_access_denied rfl hp⟩⟩

/-- Settles O39: one access, at the address, and for SP a second one behind it. -/
theorem absoluteLoadStoreResult : Obligations.AbsoluteLoadStoreResult := by
  refine ⟨fun x => ?_, fun s x hp => ⟨?_, ?_, fun hq => ?_, fun hq => ?_⟩, fun s x hp => ⟨?_, ?_, ?_⟩⟩
  · rw [← immediates_eq_ofNat]
    exact ⟨rfl, rfl, rfl⟩
  · exact exec_of_access_permitted rfl hp rfl rfl
  · exact exec_of_access_permitted rfl hp rfl rfl
  · rw [← loByte_eq_ofNat, ← hiByte_eq_ofNat]
    exact exec_of_two_accesses_permitted rfl hp hq rfl rfl
  · exact exec_of_second_access_denied rfl hp hq
  · exact exec_of_access_denied rfl hp
  · exact exec_of_access_denied rfl hp
  · exact exec_of_first_access_denied rfl hp

/-- Settles O40: each pair is the word of its two halves, and the high half is written first. -/
theorem pushResult : Obligations.PushResult := by
  refine ⟨fun rr => congrArg ([·]) (opByte_eq _ _ _), fun s => ⟨fun h₁ h₂ => ?_, fun h₁ rr => ?_, fun h₁ h₂ rr => ?_⟩⟩
  · exact ⟨exec_pushRr_of_halves rfl h₁ h₂, exec_pushRr_of_halves rfl h₁ h₂, exec_pushRr_of_halves rfl h₁ h₂,
      exec_pushRr_of_halves rfl h₁ h₂⟩
  · exact exec_of_first_access_denied rfl h₁
  · exact exec_of_second_access_denied rfl h₁ h₂

/-- Settles O41: the word read is taken apart into the halves of each pair. -/
theorem popResult : Obligations.PopResult := by
  refine ⟨fun rr => congrArg ([·]) (opByte_eq _ _ _), fun s =>
    ⟨fun h₁ h₂ => ⟨?_, ?_, ?_, ?_⟩, fun h₁ rr => ?_, fun h₁ h₂ rr => ?_⟩⟩
  · rw [exec_popRr_of_permitted _ h₁ h₂, State.setStackPair, State.setBc_wordOf]
    rfl
  · rw [exec_popRr_of_permitted _ h₁ h₂, State.setStackPair, State.setDe_wordOf]
    rfl
  · rw [exec_popRr_of_permitted _ h₁ h₂, State.setStackPair, State.setHl_wordOf]
    rfl
  · rw [exec_popRr_of_permitted _ h₁ h₂, State.setStackPair, State.setAf_wordOf]
    rfl
  · exact exec_of_first_access_denied rfl h₁
  · exact exec_of_second_access_denied rfl h₁ h₂

end Sys2Proof.Proofs
end

section
/-! PROOFS. The statements of spec/43_control.md. A control transfer is completed or ends with its first denied stack access
(`exec_of_two_accesses`); a conditional form is the unconditional one or only advances (`exec_of_conditional`). That a
RET undoes a CALL is a read-back of the two bytes pushed. -/

namespace Sys2Proof.Machine

/-! ## Words from numbers and halves -/

/-- The relative target from the address of the instruction, in exact integers, R124. -/
theorem relTarget_add_two_eq_ofInt (v : Word) (e : Byte) :
    relTarget (v + 2) e = BitVec.ofInt 16 (v.toNat + 2 + e.toInt) := by
  rw [BitVec.ofInt_add, BitVec.ofInt_add, BitVec.ofInt_natCast, BitVec.ofNat_toNat, BitVec.setWidth_eq]
  rfl

theorem wordOf_eq_ofNat (hi lo : Byte) : wordOf hi lo = BitVec.ofNat 16 (hi.toNat * 256 + lo.toNat) := by
  rw [← toNat_wordOf, BitVec.ofNat_toNat, BitVec.setWidth_eq]

/-! ## The next state of a control transfer -/

section

variable {s : State} {i : Instr} {a b : Word} {k l : Access}

theorem exec_completed (hd : s.firstDenied i = none) : exec i s = .next (s.completed i) := by
  rw [exec_eq, State.ending_of_permitted hd]

/-- Two accesses, the first denied one reported, as an ordered choice, R143. -/
theorem exec_of_two_accesses (ha : s.accesses i = [⟨a, k⟩, ⟨b, l⟩]) :
    exec i s = .next
      (if s.permits a = false then { s with run := .faulted s.pc (.outOfBounds a k) }
      else if s.permits b = false then { s with run := .faulted s.pc (.outOfBounds b l) }
      else s.completed i) := by
  cases hp : s.permits a
  · exact exec_of_first_access_denied ha hp
  · cases hq : s.permits b
    · exact exec_of_second_access_denied ha hp hq
    · exact exec_completed (by rw [State.firstDenied_two ha, if_pos hp, if_pos hq])

/-- The four conditions of R123, for an instruction that is `i` where its condition holds and advances where not. -/
theorem exec_of_conditional {t : State} {n : Word} {conditional : Cond → Instr}
    (hc : ∀ cc, exec (conditional cc) s = if s.holds cc then exec i s else .next (s.advance n))
    (hi : exec i s = .next t) :
    exec (conditional .nz) s = .next (if s.f.z = false then t else { s with pc := s.pc + n }) ∧
      exec (conditional .z) s = .next (if s.f.z = true then t else { s with pc := s.pc + n }) ∧
      exec (conditional .nc) s = .next (if s.f.c = false then t else { s with pc := s.pc + n }) ∧
      exec (conditional .c) s = .next (if s.f.c = true then t else { s with pc := s.pc + n }) := by
  simp only [hc, hi, State.holds]
  refine ⟨?_, ?_, ?_, ?_⟩
  · cases s.f.z <;> rfl
  · cases s.f.z <;> rfl
  · cases s.f.c <;> rfl
  · cases s.f.c <;> rfl

end

/-! ## A word pushed, a word popped -/

/-- The RAM regions of R33 whose addresses each have a cell of their own: echo is not among them. -/
def IsRam (a : Word) : Prop := region a = .vram ∨ region a = .wram ∨ region a = .oam ∨ region a = .hram

section

variable (s : State) {a b : Word}

theorem IsRam.cellOf (h : IsRam a) : cellOf a = some a.toNat := by
  unfold Machine.cellOf
  obtain e | e | e | e := h <;> rw [e]

theorem IsRam.ne_rom (h : IsRam a) : region a ≠ .rom := by
  obtain e | e | e | e := h <;> rw [e] <;> nofun

theorem IsRam.permits (h : IsRam a) : s.permits a = true := by
  refine State.permits_inBounds s ?_
  obtain e | e | e | e := h <;> rw [e] <;> rfl

theorem IsRam.samePlace_of_ne (ha : IsRam a) (hb : IsRam b) (h : a ≠ b) : samePlace a b = false := by
  have hn : b.toNat ≠ a.toNat := fun e => h (BitVec.eq_of_toNat_eq e.symm)
  simp only [samePlace, ha.cellOf, hb.cellOf, beq_eq_false_iff_ne, ne_eq, Option.some.injEq]
  exact hn

theorem State.readByte_writeByte_self (h : IsRam a) (v : Byte) : (s.writeByte a v).readByte a = v := by
  rw [State.readByte_of_cell _ h.cellOf, State.writeByte_of_cell s h.cellOf h.ne_rom]
  exact Memory.read_write_self s.mem a.toNat v

/-- A word pushed onto RAM is the word on top of the stack, R121 and R122. -/
theorem State.stackTop_pushed (hhi : IsRam (s.sp - 1)) (hlo : IsRam (s.sp - 2)) (v : Word) :
    (s.pushed v).stackTop = v := by
  have hne : s.sp - 2 ≠ s.sp - 1 := by bv_omega
  have hsp : s.sp - 2 + 1 = s.sp - 1 := by bv_omega
  have hhi' : (s.pushed v).readByte (s.sp - 1) = hiByte v := by
    rw [State.pushed, State.setSp_readByte, State.readByte_writeByte_ne _ (hlo.samePlace_of_ne hhi hne),
      State.readByte_writeByte_self s hhi]
  have hlo' : (s.pushed v).readByte (s.sp - 2) = loByte v := by
    rw [State.pushed, State.setSp_readByte, State.readByte_writeByte_self _ hlo]
  have hpsp : (s.pushed v).sp = s.sp - 2 := rfl
  rw [State.stackTop, hpsp, hsp, hhi', hlo', wordOf_hi_lo]

/-- A CALL whose two stack bytes are RAM is completed. -/
theorem exec_callA16_of_isRam (hhi : IsRam (s.sp - 1)) (hlo : IsRam (s.sp - 2)) (x : Word) :
    exec (.callA16 x) s = .next ((s.pushed (s.pc + 3)).setPc x) :=
  exec_completed (by rw [State.firstDenied_two rfl, if_pos (hhi.permits s), if_pos (hlo.permits s)])

/-- A RET whose two stack bytes are RAM is completed. -/
theorem exec_ret_of_isRam (hlo : IsRam s.sp) (hhi : IsRam (s.sp + 1)) :
    exec .ret s = .next ((s.setSp (s.sp + 2)).setPc s.stackTop) :=
  exec_completed (by rw [State.firstDenied_two rfl, if_pos (hlo.permits s), if_pos (hhi.permits s)])

end

end Sys2Proof.Machine

namespace Sys2Proof.Proofs

open Sys2Proof.Machine

/-! ## The statements -/

/-- Settles O59: the CALL's two bytes are RAM, so the RET's are, and the word popped is the word pushed. -/
theorem callThenReturn : Obligations.CallThenReturn := by
  intro s t u x h₁ h₂ hcall hret
  have hhi : IsRam (s.sp - 1) := region_of_ram (by omega)
  have hlo : IsRam (s.sp - 2) := region_of_ram (by omega)
  rw [exec_callA16_of_isRam s hhi hlo] at hcall
  injection hcall with ht
  subst ht
  have hsp : s.sp - 2 + 1 = s.sp - 1 := by bv_omega
  have hhi' : IsRam (s.sp - 2 + 1) := by rwa [hsp]
  rw [exec_ret_of_isRam _ hlo hhi'] at hret
  injection hret with hu
  subst hu
  refine ⟨rfl, State.stackTop_pushed s hhi hlo _, BitVec.sub_add_cancel _ _, ?_⟩
  simp [State.pushed]

/-- Settles O43: the target is an exact sum. -/
theorem relativeJumpResult : Obligations.RelativeJumpResult := by
  refine ⟨fun cc e => ⟨rfl, congrArg (· :: [e]) (opByte_eq _ _ _)⟩, fun s e => ?_⟩
  intro taken fall
  have htaken : exec (.jrE8 e) s = .next taken := by
    simp only [taken, ← relTarget_add_two_eq_ofInt]
    rfl
  exact ⟨htaken, exec_of_conditional (conditional := (.jrCcE8 · e)) (fun _ => rfl) htaken⟩

/-- Settles O44: the operand is the next program counter. -/
theorem absoluteJumpResult : Obligations.AbsoluteJumpResult := by
  refine ⟨fun cc x => ?_, rfl, fun s x => ?_⟩
  · rw [← immediates_eq_ofNat]
    exact ⟨rfl, congrArg (· :: [loByte x, hiByte x]) (opByte_eq _ _ _)⟩
  · obtain ⟨hnz, hz, hnc, hc⟩ :=
      exec_of_conditional (conditional := (.jpCcA16 · x)) (i := .jpA16 x) (s := s) (fun _ => rfl) rfl
    exact ⟨rfl, hnz, hz, hnc, hc, rfl⟩

/-- Settles O45: two writes, and the halves pushed as numbers. -/
theorem callResult : Obligations.CallResult := by
  refine ⟨fun cc x => ?_, fun s x => ?_⟩
  · rw [← immediates_eq_ofNat]
    exact ⟨rfl, congrArg (· :: [loByte x, hiByte x]) (opByte_eq _ _ _)⟩
  · intro next taken fall
    have htaken : exec (.callA16 x) s = .next taken := by
      simp only [taken, ← hiByte_eq_ofNat, ← loByte_eq_ofNat]
      exact exec_of_two_accesses rfl
    exact ⟨htaken, exec_of_conditional (conditional := (.callCcA16 · x)) (fun _ => rfl) htaken⟩

/-- Settles O46: two reads, and the word popped as a number. -/
theorem returnResult : Obligations.ReturnResult := by
  refine ⟨fun cc => ⟨rfl, congrArg ([·]) (opByte_eq _ _ _)⟩, fun s => ?_⟩
  intro taken fall
  have htaken : exec .ret s = .next taken := by
    simp only [taken, ← wordOf_eq_ofNat]
    exact exec_of_two_accesses rfl
  exact ⟨htaken, exec_of_conditional (fun _ => rfl) htaken⟩

end Sys2Proof.Proofs
end

section
/-! PROOFS. The statements of spec/44_system.md. What a refused instruction does is said once, by its opcode
(`exec_of_refusedOp`); at pc it is fetched from that one byte (`State.fetch_of_encode_singleton`). -/

namespace Sys2Proof.Machine

section

variable {s : State} {i : Instr} {op : Byte}

/-- R138 and R140: a refused instruction makes no data access, and leaves pc at its opcode. -/
theorem exec_of_refusedOp (h : i.refusedOp = some op) :
    exec i s = .next { s with run := .faulted s.pc (.decodeError op) } := by
  cases i <;> cases h
  all_goals exact exec_completed (State.firstDenied_none rfl)

/-- The fetch of a one-byte instruction needs no byte after the opcode to be readable, R59. -/
theorem State.fetch_of_encode_singleton (hw : i.wf = true) (he : encode i = [op]) (hp : s.permits s.pc = true)
    (hb : s.readByte s.pc = op) : s.fetch = .ok i := by
  have hd := decode_encode hw [s.readByte (s.pc + 1), s.readByte (s.pc + 2)]
  rw [he, ← hb] at hd
  refine State.fetch_of_decode hd fun k hk => ?_
  have hk0 : k = 0 := by simpa [Instr.length, he] using hk
  simpa [hk0] using hp

end

end Sys2Proof.Machine

namespace Sys2Proof.Proofs

open Sys2Proof.Machine

/-! ## The statements -/

/-- Settles O7: the opcode alone is fetched, as a refused instruction, from the state with the host's input drawn. -/
theorem refusedOpcodeStep : Obligations.RefusedOpcodeStep := by
  intro s op hr hp hb hm
  obtain ⟨i, hw, hi, he⟩ := exists_refused hm
  have hf : s.drawInput.fetch = .ok i := State.fetch_of_encode_singleton hw he hp hb
  rw [step_of_fetch_ok hr hf]
  exact exec_of_refusedOp hi

/-- Settles O47: none of the four accesses data. -/
theorem systemResult : Obligations.SystemResult :=
  ⟨rfl, rfl, fun _ => rfl, rfl, fun _ => ⟨exec_of_no_access rfl rfl rfl, exec_of_no_access rfl rfl rfl,
    fun _ => exec_of_no_access rfl rfl rfl, exec_of_no_access rfl rfl rfl⟩⟩

/-- Settles O48: each term of the list is well-formed and has its byte as `Instr.refusedOp`, which gives the rest. -/
theorem refusedResult : Obligations.RefusedResult := by
  intro i op hm
  have hlist : i.wf = true ∧ i.refusedOp = some op := by
    refine (?_ : ∀ p ∈ _, p.1.wf = true ∧ p.1.refusedOp = some p.2) (i, op) hm
    decide
  obtain ⟨hw, hi⟩ := hlist
  exact ⟨(refusedOp_eq_some hw hi).1, hw, fun _ => exec_of_refusedOp hi⟩

end Sys2Proof.Proofs
end

section
/-! PROOFS. The statements of spec/60_exceptions.md. What an error leaves is said once: a step that faults has raised its
error in the state it began with (`step_faulted_raise`), and only a denied access raises OutOfBoundsAccess. The joypad
register and the framebuffer are read bit by bit. -/

namespace Sys2Proof.Machine

/-! ## The first denied fetch -/

section

variable {s : State} {x : OobAccess}

theorem State.fetch_of_opcode_denied (h : s.permits s.pc = false) : s.fetch = .error ⟨s.pc, .read⟩ := by
  rw [State.fetch_eq, if_neg (Bool.eq_false_iff.mp h)]

theorem State.fetch_of_first_immediate_denied (h₀ : s.permits s.pc = true)
    (hl : 2 ≤ (decodeOpcode (s.readByte s.pc)).length) (h₁ : s.permits (s.pc + 1) = false) :
    s.fetch = .error ⟨s.pc + 1, .read⟩ := by
  have hn : ¬s.permits (s.pc + 1) = true := Bool.eq_false_iff.mp h₁
  rw [State.fetch_eq, if_pos h₀]
  cases hf : decodeOpcode (s.readByte s.pc) with
  | f1 i =>
    rw [hf] at hl
    exact absurd hl (by decide : ¬2 ≤ 1)
  | f2 k => exact if_neg hn
  | f3 k => exact if_neg hn

theorem State.fetch_of_second_immediate_denied (h₀ : s.permits s.pc = true) (h₁ : s.permits (s.pc + 1) = true)
    (hl : (decodeOpcode (s.readByte s.pc)).length = 3) (h₂ : s.permits (s.pc + 2) = false) :
    s.fetch = .error ⟨s.pc + 2, .read⟩ := by
  rw [State.fetch_eq, if_pos h₀]
  cases hf : decodeOpcode (s.readByte s.pc) with
  | f1 i | f2 k =>
    rw [hf] at hl
    cases hl
  | f3 k => exact (if_pos h₁).trans (if_neg (Bool.eq_false_iff.mp h₂))

/-! ## What an error leaves -/

/-- A fetch fails at a denied address only, R141. -/
theorem State.not_permits_of_fetch_error (h : s.fetch = .error x) : ¬s.permits x.addr = true := by
  rw [State.fetch_eq] at h
  by_cases h₀ : s.permits s.pc = true
  · rw [if_pos h₀] at h
    split at h
    · cases h
    · split at h
      · cases h
      · next h₁ => cases h; exact h₁
    · split at h
      · split at h
        · cases h
        · next h₂ => cases h; exact h₂
      · next h₁ => cases h; exact h₁
  · rw [if_neg h₀] at h
    cases h
    exact h₀

theorem State.not_permits_of_firstDenied {i : Instr} (h : s.firstDenied i = some x) : ¬s.permits x.addr = true := by
  simpa using List.find?_some h

/-- Under the policy Sentinel no access is denied, R141. -/
theorem State.not_sentinel_of_not_permits {a : Word} (h : ¬s.permits a = true) : s.params.oobPolicy ≠ .sentinel :=
  fun hs => h (State.permits_sentinel s hs a)

variable {t : State} {pc : Word} {info : FaultInfo}

/-- An instruction of a Running CPU that faults has raised its error and written nothing else, R144. -/
theorem exec_faulted_raise {i : Instr} (hr : s.run = .running) (h : exec i s = .next t) (ht : t.run = .faulted pc info) :
    t = s.raise info ∧ (s.params.oobPolicy = .sentinel → ∃ op, info = .decodeError op) := by
  obtain ⟨x, hx, rfl⟩ | ⟨-, hc⟩ := exec_next h
  · cases ht
    exact ⟨rfl, fun hs => absurd hs (State.not_sentinel_of_not_permits (State.not_permits_of_firstDenied hx))⟩
  · have hrun : (s.effect i).run = .faulted pc info := by rw [← ht, hc]; rfl
    obtain e | ⟨e, -⟩ | ⟨op, hop, e⟩ := State.effect_run s i
    · rw [e, hr] at hrun
      cases hrun
    · rw [e] at hrun
      cases hrun
    · rw [e] at hrun
      cases hrun
      rw [exec_of_refusedOp hop] at h
      injection h with h
      exact ⟨h.symm, fun _ => ⟨op, rfl⟩⟩

/-- A step that faults has raised its error in the state it began with, the host's input drawn, R144. -/
theorem step_faulted_raise (h : step s = .next t) (ht : t.run = .faulted pc info) :
    t = s.drawInput.raise info ∧ (s.params.oobPolicy = .sentinel → ∃ op, info = .decodeError op) := by
  obtain ⟨hr, ⟨i, -, he⟩ | ⟨x, hx, rfl⟩⟩ := step_next s h
  · exact exec_faulted_raise hr he ht
  · cases ht
    have hp : ¬s.drawInput.permits x.addr = true := State.not_permits_of_fetch_error hx
    exact ⟨rfl, fun hs => absurd hs (State.not_sentinel_of_not_permits hp)⟩

end

/-! ## The joypad register -/

/-- Four buttons in bits 0 to 3, as R154 numbers them. -/
def buttonByte (b₀ b₁ b₂ b₃ : Bool) : Byte := BitVec.ofNat 8 (b₀.toNat + 2 * b₁.toNat + 4 * b₂.toNat + 8 * b₃.toNat)

/-- A group of buttons is seen where its select bit is 0. -/
theorem buttonByte_selected (p b₀ b₁ b₂ b₃ : Bool) :
    (if p = false then buttonByte b₀ b₁ b₂ b₃ else 0) = buttonByte (!p && b₀) (!p && b₁) (!p && b₂) (!p && b₃) := by
  cases p <;> rfl

theorem buttonByte_or (b₀ b₁ b₂ b₃ c₀ c₁ c₂ c₃ : Bool) :
    buttonByte b₀ b₁ b₂ b₃ ||| buttonByte c₀ c₁ c₂ c₃ = buttonByte (b₀ || c₀) (b₁ || c₁) (b₂ || c₂) (b₃ || c₃) := by
  revert b₀ b₁ b₂ b₃ c₀ c₁ c₂ c₃
  decide

/-- The bits of the joypad register: two ones, the select bits, and the selected buttons active low. -/
theorem joypBits_eq (p₁₅ p₁₄ b₀ b₁ b₂ b₃ : Bool) :
    BitVec.ofBool true ++ BitVec.ofBool true ++ BitVec.ofBool p₁₅ ++ BitVec.ofBool p₁₄ ++ BitVec.ofBool (!b₃) ++
        BitVec.ofBool (!b₂) ++ BitVec.ofBool (!b₁) ++ BitVec.ofBool (!b₀) =
      0xC0 ||| BitVec.ofNat 8 (32 * p₁₅.toNat) ||| BitVec.ofNat 8 (16 * p₁₄.toNat) |||
        (~~~buttonByte b₀ b₁ b₂ b₃ &&& 0x0F) := by
  revert p₁₅ p₁₄ b₀ b₁ b₂ b₃
  decide

/-- The joypad register lies in bounds, so every access to it goes through. -/
theorem State.permits_joypad (s : State) : s.permits 0xFF00 = true := State.permits_inBounds s rfl

/-! ## The framebuffer -/

section

variable (s : State)

/-- In a well-formed configuration every tile lies in VRAM, R142. -/
theorem Params.tileInVram_of_wf {p : Params} (h : p.wf) (t : Byte) : Params.tileInVram p t = true := by
  obtain ⟨hlo, hhi, -, -⟩ := h
  have ht : t.toNat < 256 := t.isLt
  have haddr : Params.tileAddr p t = p.tileBase + 16 * t.toNat := rfl
  rw [Params.tileInVram, Bool.and_eq_true]
  exact ⟨decide_eq_true (by omega), decide_eq_true (by omega)⟩

theorem State.render_of_wf (h : s.params.wf) : s.render = .ok s.framebuffer := by
  have hnone : ((Params.mapPositions s.params).find? fun q =>
      !Params.tileInVram s.params (s.mapEntry q.1 q.2)) = none := by
    rw [List.find?_eq_none]
    intro q _
    simp [Params.tileInVram_of_wf h]
  rw [State.render, hnone]

theorem State.length_framebuffer : s.framebuffer.length = 8 * s.params.mapH := by
  rw [State.framebuffer, List.length_map, List.length_range]

/-- The row `y` of the framebuffer, R157. -/
def State.framebufferRow (y : Nat) : List (BitVec 2) :=
  (List.range (8 * s.params.mapW)).map fun x => s.pixel x y

theorem State.getElem?_framebuffer {y : Nat} (h : y < 8 * s.params.mapH) :
    s.framebuffer[y]? = some (s.framebufferRow y) := by
  rw [State.framebuffer, List.getElem?_map, List.getElem?_range h]
  rfl

theorem State.length_framebufferRow (y : Nat) : (s.framebufferRow y).length = 8 * s.params.mapW := by
  rw [State.framebufferRow, List.length_map, List.length_range]

theorem State.getElem?_framebufferRow {x : Nat} (y : Nat) (h : x < 8 * s.params.mapW) :
    (s.framebufferRow y)[x]? = some (s.pixel x y) := by
  rw [State.framebufferRow, List.getElem?_map, List.getElem?_range h]
  rfl

/-- A pixel as a number, R156: the high plane's bit counts 2. -/
theorem planePixel_eq_ofNat (lo hi : Byte) (x : Nat) :
    planePixel lo hi x = BitVec.ofNat 2 (2 * (hi.getLsbD (7 - x)).toNat + (lo.getLsbD (7 - x)).toNat) := by
  rw [planePixel]
  cases hi.getLsbD (7 - x) <;> cases lo.getLsbD (7 - x) <;> rfl

end

end Sys2Proof.Machine

namespace Sys2Proof.Proofs

open Sys2Proof.Machine

/-! ## The statements -/

/-- Settles O10: a denied access ends the instruction with its error, in the state it began with. -/
theorem dataOutOfBounds : Obligations.DataOutOfBounds := fun _ _ _ h => exec_of_denied h

/-- Settles O57: the error is raised in the state the step began with, whose pc is the instruction's. -/
theorem errorsArePrecise : Obligations.ErrorsArePrecise := by
  intro s t pc info h ht
  obtain ⟨rfl, hsentinel⟩ := step_faulted_raise h ht
  injection ht with hpc
  exact ⟨hpc.symm, rfl, hsentinel⟩

/-- Settles O60: no map entry names a tile outside VRAM, and each cell is the pixel of its two planes. -/
theorem renderGivesFramebuffer : Obligations.RenderGivesFramebuffer := by
  intro s hw
  refine ⟨s.framebuffer, s.render_of_wf hw, s.length_framebuffer, fun y hy => ?_⟩
  refine ⟨s.framebufferRow y, s.getElem?_framebuffer hy, s.length_framebufferRow y, fun x hx => ?_⟩
  rw [s.getElem?_framebufferRow y hx, State.pixel, State.tilePixel, planePixel_eq_ofNat]
  rfl

/-- Settles O9: the fetch stops at its first denied byte, and the step raises that error. -/
theorem fetchOutOfBounds : Obligations.FetchOutOfBounds :=
  ⟨fun _ hr h₀ => step_of_fetch_error hr (State.fetch_of_opcode_denied h₀),
    fun _ hr h₀ hl h₁ => step_of_fetch_error hr (State.fetch_of_first_immediate_denied h₀ hl h₁),
    fun _ hr h₀ h₁ hl h₂ => step_of_fetch_error hr (State.fetch_of_second_immediate_denied h₀ h₁ hl h₂)⟩

/-- Settles O20: the selected buttons are the union of the two groups, each seen where its select bit is 0. -/
theorem joypadRead : Obligations.JoypadRead := by
  intro s j dir act sel
  have hsel : sel = buttonByte (!s.p14 && j.right || !s.p15 && j.a) (!s.p14 && j.left || !s.p15 && j.b)
      (!s.p14 && j.up || !s.p15 && j.select) (!s.p14 && j.down || !s.p15 && j.start) := by
    rw [← buttonByte_or, ← buttonByte_selected, ← buttonByte_selected]
    rfl
  rw [State.busRead_of_permits s s.permits_joypad, hsel, ← joypBits_eq]
  rfl

/-- Settles O21: a write at 0xFF00 goes through, to the joypad register. -/
theorem joypadWrite : Obligations.JoypadWrite :=
  fun s v => State.busWrite_of_permits s s.permits_joypad v

end Sys2Proof.Proofs
end

section
/-! PROOFS. The statements of spec/70_reset_and_hazards.md. A load's ROM bytes are said once, inside and outside the image.
The host's reset reads no more of a state than its ROM, its parameters and the host's inputs; every action but a load keeps
the first two (`State.SameProgram`), so a reset after any of them is the reset right after the load. -/

namespace Sys2Proof.Machine

/-! ## The ROM bytes of an image -/

section

variable {p : Params} {image : List Byte}

theorem Params.romByte_in_image {i : Nat} (h : i < image.length) :
    some (Params.romByte p image (p.romBase + i)) = image[i]? := by
  rw [Params.romByte, if_pos (Nat.le_add_right _ _), Nat.add_sub_cancel_left, List.getD_eq_getElem _ _ h,
    List.getElem?_eq_getElem h]

theorem Params.romByte_outside_image {a : Nat} (h : a < p.romBase ∨ p.romBase + image.length ≤ a) :
    Params.romByte p image a = p.romFill := by
  rw [Params.romByte]
  split
  · next hb => exact List.getD_eq_default _ _ (by omega)
  · rfl

end

theorem State.perform_load_of_error {s : State} {image : List Byte} {x : LoadError} (h : s.load image = .error x) :
    s.perform (.load image) = s := by
  rw [State.perform, h]

/-! ## What only a load changes -/

section

variable {s t u : State}

/-- Two states with the same ROM and the same parameters. -/
structure State.SameProgram (s t : State) : Prop where
  rom : ∀ a, a < 0x8000 → Memory.read t.mem a = Memory.read s.mem a
  params : t.params = s.params

theorem State.SameProgram.refl (s : State) : s.SameProgram s := ⟨fun _ _ => rfl, rfl⟩

theorem State.SameProgram.trans (h : s.SameProgram t) (k : t.SameProgram u) : s.SameProgram u :=
  ⟨fun a ha => (k.rom a ha).trans (h.rom a ha), k.params.trans h.params⟩

theorem State.hostReset_sameProgram (s : State) : s.SameProgram s.hostReset :=
  ⟨fun _ ha => Params.read_storage_rom _ _ ha, rfl⟩

theorem step_sameProgram (h : step s = .next t) : s.SameProgram t :=
  ⟨fun _ ha => step_rom h ha, (step_params_joypad_inputs h).1⟩

theorem State.perform_sameProgram (s : State) {x : HostAction} (hx : ∀ image, x ≠ .load image) :
    s.SameProgram (s.perform x) := by
  cases x with
  | load image => exact absurd rfl (hx image)
  | reset => exact s.hostReset_sameProgram
  | step =>
    rw [State.perform]
    split
    · next h => exact step_sameProgram h
    · exact .refl s
    · exact .refl s
  | input j => exact ⟨fun _ _ => rfl, rfl⟩

theorem State.performAll_sameProgram (s : State) {acts : List HostAction} (h : ∀ x ∈ acts, ∀ image, x ≠ .load image) :
    s.SameProgram (s.performAll acts) := by
  induction acts generalizing s with
  | nil => exact .refl s
  | cons x xs ih =>
    obtain ⟨hx, hxs⟩ := List.forall_mem_cons.mp h
    exact (s.perform_sameProgram hx).trans (ih _ hxs)

/-! ## The reset after a load -/

theorem State.SameProgram.hostReset (h : s.SameProgram t) :
    t.hostReset = { s.hostReset with joypad := t.joypad, inputs := t.inputs } := by
  rw [State.hostReset, h.params, Params.storage_congr _ h.rom]
  rfl

/-- A reset right after a load changes nothing: the image it takes from ROM is the one just loaded. -/
theorem State.hostReset_of_load {image : List Byte} (h : s.load image = .ok t) : t.hostReset = t := by
  obtain ⟨-, -, rfl⟩ := State.load_ok s h
  rw [State.hostReset, Params.afterReset_params, Params.afterReset_mem,
    Params.storage_congr _ fun _ ha => Params.read_storage_rom _ _ ha]
  rfl

end

end Sys2Proof.Machine

namespace Sys2Proof.Proofs

open Sys2Proof.Machine

/-! ## The statements -/

/-- Settles O15: the actions keep ROM and the parameters, so the reset is the one right after the load, which changes
nothing. -/
theorem resetRestoresLoadedState : Obligations.ResetRestoresLoadedState := by
  intro s t image acts hload hacts
  rw [(t.performAll_sameProgram hacts).hostReset, State.hostReset_of_load hload]

/-- Settles O13: the new storage is read cell by cell, the rest is what reset writes; a refused load changes nothing. -/
theorem loadIsResetWithImage : Obligations.LoadIsResetWithImage := by
  refine ⟨fun s image hw hl => ⟨_, State.load_wf s hw hl, fun i hi ha => ?_, fun a ha ho => ?_, fun a ha hs => ?_, ?_⟩,
    fun s image hw hl => ?_⟩
  · rw [Params.afterReset_mem, Params.read_storage_rom _ _ ha, Params.romByte_in_image hi]
  · rw [Params.afterReset_mem, Params.read_storage_rom _ _ ha, Params.romByte_outside_image ho]
  · exact Params.read_storage_ram _ _ ha hs
  · exact ⟨rfl, rfl, rfl, rfl, rfl, rfl, rfl, rfl, rfl, rfl, rfl, rfl, rfl, rfl, rfl, rfl, rfl⟩
  · have hload := State.load_long s hw hl
    exact ⟨hload, State.perform_load_of_error hload⟩

end Sys2Proof.Proofs
end
